-- ==== Sys2Proof/Word.lean ====
section
/-! DEFINITION. The word types of the register window and the plainest helpers over fixed tables. -/

namespace Sys2Proof

/-- A register of the window: every register is 16 bits wide (R194). -/
abbrev Word := BitVec 16

/-- A byte on the SPI port: the command byte and the status byte (R190). -/
abbrev Byte := BitVec 8

/-- An address of the register window, 00h to 7Fh (R190). -/
abbrev Address := BitVec 7

/-- The table of a fixed number of like things whose entry at `i` is `f i`. -/
def tabulate {n : Nat} {α : Type} (f : Fin n → α) : Vector α n := Vector.ofFn f

/-- The table whose entries are those of `v` under `f`. -/
def mapTable {n : Nat} {α β : Type} (v : Vector α n) (f : α → β) : Vector β n := ⟨⟨v.toList.map f⟩, by simp⟩

/-- The word whose lower byte is `lower` and whose upper byte is `upper`. -/
def wordOfBytes (lower upper : Nat) : Word := BitVec.ofNat 16 (lower + 256 * upper)

/-- The lower byte of a word, as a number. -/
def lowerByte (w : Word) : Nat := w.toNat % 256

/-- The upper byte of a word, as a number. -/
def upperByte (w : Word) : Nat := w.toNat / 256

end Sys2Proof
end

