-- ==== Sys2Proof/Syntax.lean ====
section
/-! DEFINITION. The commands: one constructor for each row of the table of operations and events. A command is one
whole, indivisible step of the part: an action or a word on the SPI port, an edge on a pin, an event of a clock, the
completion of an operation, or the arrival of a message at the block it was sent to. -/

namespace Sys2Proof

/-- The six trip sources with the detail that two of them carry (R172). -/
inductive TripSource where
  /-- The held condition of FLT0 has qualified. -/
  | fault0
  /-- The held condition of FLT1 has qualified. -/
  | fault1
  /-- A record of a trip-on-limit slot lies outside its window; the detail is the slot. -/
  | limit (slot : Fin 8)
  /-- A rise of a TRIP-policy group was not clear; the detail is the group. -/
  | interlock (group : Fin 6)
  /-- The sync timeout expired with SYNC_LOST enabled. -/
  | syncLost
  /-- The TRIP action. -/
  | software
  deriving DecidableEq, Repr

/-- The commands. Operands are given where one row stands for several events: the byte or word on MOSI, the fault
input and its pin level, the group whose waiting rise expires, the source that is taken. An action register's word is
not examined (R196), so an action has no operand: it reads P0 to P3. -/
inductive Instr where
  | powerOn
  | rstAssert
  | rstRelease
  | csFall
  | commandByte (byte : Byte)
  | csRise
  | registerWrite (word : Word)
  | recordRead
  | iflagWrite (word : Word)
  | ienableWrite (word : Word)
  | insertEdge
  | removeEdge
  | clearStage
  | setFrameLength
  | copyActive
  | copyCompletion
  | readStageEntry
  | readActiveEntry
  | commit
  | validationCompletion
  | withdraw
  | tripNoticePlanStore
  | setTimebase
  | start
  | stop
  | tick
  | syncInArrival
  | syncTimeout
  | engineClaims
  | deferralExpiry (group : Fin 6)
  | setLineConfig
  | setLineMode
  | setGroup
  | readLine
  | readGroup
  | clearNoticeTimebase
  | clearNoticeLineBlock
  | setSlot
  | readSlot
  | sampleNow
  | sampleRequest
  | conversionCompletion
  | setConverter
  | calibrate
  | calibrationConversion
  | cancelCal
  | tripNoticeConverter
  | setRing
  | faultSample (input : Fin 2) (pinHigh : Bool)
  | filterExpiry (input : Fin 2)
  | setFault
  | tripSource (source : TripSource)
  | trip
  | clearTrip
  | readTripRecord
  | clearCounters
  | softReset
  deriving DecidableEq, Repr

end Sys2Proof
end

