-- ==== Sys2Proof/Decode.lean ====
section
/-! DEFINITION. The table gives no row any bits, so no word spells a command by the table. What the manual does
encode is the register map: the address at which a write word requests a command (R194). -/

namespace Sys2Proof

/-- No row of the table gives bits: no word spells a command. -/
def decodeTableWord (_nbits _w : Nat) : Option Instr := none

/-- The command that a write word `word` at address `a` is, for the addresses whose write has a row of its own:
IFLAG, IENABLE and the thirty action registers (R194). -/
def commandAt (a : Address) (word : Word) : Option Instr :=
  match a.toNat with
  | 0x03 => some (.iflagWrite word)
  | 0x04 => some (.ienableWrite word)
  | 0x20 => some .insertEdge
  | 0x21 => some .removeEdge
  | 0x22 => some .clearStage
  | 0x23 => some .copyActive
  | 0x24 => some .setFrameLength
  | 0x25 => some .readStageEntry
  | 0x26 => some .readActiveEntry
  | 0x27 => some .commit
  | 0x28 => some .withdraw
  | 0x29 => some .setTimebase
  | 0x2A => some .start
  | 0x2B => some .stop
  | 0x2C => some .setLineConfig
  | 0x2D => some .setLineMode
  | 0x2E => some .setGroup
  | 0x2F => some .readGroup
  | 0x30 => some .setSlot
  | 0x31 => some .sampleNow
  | 0x32 => some .setConverter
  | 0x33 => some .calibrate
  | 0x34 => some .cancelCal
  | 0x35 => some .setFault
  | 0x36 => some .trip
  | 0x37 => some .clearTrip
  | 0x38 => some .readTripRecord
  | 0x39 => some .clearCounters
  | 0x3A => some .softReset
  | 0x3B => some .setRing
  | 0x3C => some .readLine
  | 0x3D => some .readSlot
  | _ => none

/-- The address of the register whose write word is the command, for the commands that are one (R194). -/
def Instr.address : Instr → Option Address
  | .iflagWrite _ => some 0x03#7
  | .ienableWrite _ => some 0x04#7
  | .insertEdge => some 0x20#7
  | .removeEdge => some 0x21#7
  | .clearStage => some 0x22#7
  | .copyActive => some 0x23#7
  | .setFrameLength => some 0x24#7
  | .readStageEntry => some 0x25#7
  | .readActiveEntry => some 0x26#7
  | .commit => some 0x27#7
  | .withdraw => some 0x28#7
  | .setTimebase => some 0x29#7
  | .start => some 0x2A#7
  | .stop => some 0x2B#7
  | .setLineConfig => some 0x2C#7
  | .setLineMode => some 0x2D#7
  | .setGroup => some 0x2E#7
  | .readGroup => some 0x2F#7
  | .setSlot => some 0x30#7
  | .sampleNow => some 0x31#7
  | .setConverter => some 0x32#7
  | .calibrate => some 0x33#7
  | .cancelCal => some 0x34#7
  | .setFault => some 0x35#7
  | .trip => some 0x36#7
  | .clearTrip => some 0x37#7
  | .readTripRecord => some 0x38#7
  | .clearCounters => some 0x39#7
  | .softReset => some 0x3A#7
  | .setRing => some 0x3B#7
  | .readLine => some 0x3C#7
  | .readSlot => some 0x3D#7
  | .powerOn | .rstAssert | .rstRelease | .csFall | .commandByte _ | .csRise | .registerWrite _ | .recordRead => none
  | .copyCompletion | .validationCompletion | .tripNoticePlanStore | .tick | .syncInArrival | .syncTimeout => none
  | .engineClaims | .deferralExpiry _ | .clearNoticeTimebase | .clearNoticeLineBlock | .sampleRequest => none
  | .conversionCompletion | .calibrationConversion | .tripNoticeConverter | .faultSample _ _ => none
  | .filterExpiry _ | .tripSource _ => none

end Sys2Proof
end

