-- ==== Sys2Proof/Config.lean ====
section
/-! DEFINITION. What the part fixes (capacities and limits of the manual), and the free values: what the manual
leaves to the world outside, as constants without a body. -/

namespace Sys2Proof

/-- Entries a plan bank can hold (R6). -/
def Config.planCapacity : Nat := 64
/-- The least frame length (R5). -/
def Config.minFrameLength : Nat := 16
/-- The frame length of both banks at power-on and of the bank an abandoned copy leaves (R15, R33). -/
def Config.resetFrameLength : Nat := 1000
/-- The number at which a fall age stays (R109). -/
def Config.ageLimit : Nat := 1024
/-- Requests the conversion queue can hold (R142). -/
def Config.queueCapacity : Nat := 4
/-- Records the result ring can hold (R161). -/
def Config.ringCapacity : Nat := 16
/-- Records the trip list can hold (R177). -/
def Config.tripListCapacity : Nat := 4
/-- The number at which a result's wait stays (R146). -/
def Config.waitLimit : Nat := 1023
/-- The trim at power-on (R157). -/
def Config.resetTrim : Nat := 16
/-- The raw value that MREF has when the converter has no offset (R146). -/
def Config.midScale : Nat := 2048
/-- Converter periods of one conversion (R145). -/
def Config.conversionPeriods : Nat := 32
/-- CLK periods between two samples of a fault input (R173). -/
def Config.faultUnit : Nat := 8

/-- FREE VALUE (log entry 3): the raw value, 0 to 4095, that a channel will show at its next sampling instant,
after the model has taken its `n`-th sample. The pins AIN0 to AIN7 and the internal reference lie outside the
manual's rules, so nothing constrains it but its width (R146). -/
opaque Config.analogLevel : Nat → Fin 9 → BitVec 12

/-- FREE VALUE (log entry 4): for the tick after the `n`-th, the groups whose head the guard examines after the
other events of that tick and not before them. The manual allows either order (R126, R128). -/
opaque Config.headExaminedLate : Nat → BitVec 6

end Sys2Proof
end

