-- ==== Sys2Proof/Machine/State.lean ====
section
/-! DEFINITION. The state of the part, block by block, as the manual names it, with the model's own fields apart:
messages under way between blocks, the world outside, and the queue of waiting commands. -/

namespace Sys2Proof.Machine

/-! ### Plans (R1 to R10) -/

/-- The parity of a frame (R2). -/
inductive Parity where
  | even
  | odd
  deriving DecidableEq, Repr

/-- What an edge entry claims of its line (R4). -/
inductive EdgeAction where
  | rise
  | fall
  | mark
  deriving DecidableEq, Repr

/-- The frames in which an entry fires (R2). -/
inductive Cadence where
  | every
  | even
  | odd
  deriving DecidableEq, Repr

/-- An edge entry (R3). -/
structure Entry where
  offset  : Nat
  line    : Fin 16
  action  : EdgeAction
  cadence : Cadence
  tag     : Option (Fin 8)
  deriving DecidableEq, Repr

/-- The level at which a line begins a frame (R7). -/
inductive StartLevel where
  | active
  | inactive
  | rest
  deriving DecidableEq, Repr

/-- The start-level table: one start level for each parity and line (R7). -/
structure StartTable where
  even : Vector StartLevel 16
  odd  : Vector StartLevel 16
  deriving DecidableEq, Repr

/-- The trivial table: REST for every line and both parities (R7). -/
def StartTable.trivial : StartTable := ⟨tabulate fun _ => .rest, tabulate fun _ => .rest⟩

/-- A plan (R5). The validated mark is set exactly when the table is present, so the table alone holds both. -/
structure Plan where
  frameLength : Nat
  entries     : List Entry
  table       : Option StartTable
  deriving DecidableEq, Repr

/-- The two banks (R9). -/
inductive Bank where
  | a
  | b
  deriving DecidableEq, Repr

/-- The staging state (R19). -/
inductive Staging where
  | editing
  | copying
  | validating
  | pending
  deriving DecidableEq, Repr

/-- The plan store (R9, R10, R19, R57). `since` is the instant at which the copy or validation in flight was
taken, in the model's count of CLK periods (log entry 6). -/
structure PlanStore where
  bankA        : Plan
  bankB        : Plan
  selector     : Bank
  generation   : Word
  staging      : Staging
  lateWithdraw : Bool
  since        : Nat
  deriving DecidableEq, Repr

/-- The plan of power-on: frame length 1000, no entry, trivial table, mark set (R15). -/
def Plan.powerOn : Plan := ⟨Config.resetFrameLength, [], some .trivial⟩

/-- The plan an abandoned copy leaves: frame length 1000, no entry, no table, mark clear (R33). -/
def Plan.abandoned : Plan := ⟨Config.resetFrameLength, [], none⟩

/-! ### Validator (R40, R50) -/

/-- The three checks of validation (R41). -/
inductive PlanCheck where
  | alternation
  | interlock
  | transition
  deriving DecidableEq, Repr

/-- What cancelled a commit (R50). -/
inductive CancelCause where
  | trip
  | softReset
  deriving DecidableEq, Repr

/-- The validation report (R50): each outcome carries the fields that are present with it. -/
inductive Report where
  | none
  | pass (junctionChecked : Bool)
  | fail (junctionChecked : Bool) (check : PlanCheck) (parity : Parity) (offset : Nat) (line : Fin 16)
      (startRise : Bool)
  | cancelled (cause : CancelCause)
  deriving DecidableEq, Repr

/-- The validator (R40). `junction` is what the commit noted: the timebase was not STOPPED, so TRANSITION runs
(R38, R47). -/
structure Validator where
  running  : Bool
  junction : Bool
  report   : Report
  deriving DecidableEq, Repr

/-! ### Frame timebase (R63 to R87) and edge engine (R88) -/

/-- The timebase states (R67). -/
inductive TimebaseState where
  | stopped
  | awaitSync
  | running
  | holding
  | stopping
  | halted
  deriving DecidableEq, Repr

/-- The sync mode (R64). -/
inductive SyncMode where
  | free
  | follow
  deriving DecidableEq, Repr

/-- The frame timebase (R86). `nextTick` is the instant of the tick clock's next tick in the model's count of CLK
periods (R63, log entry 6). -/
structure Timebase where
  state        : TimebaseState
  prescaler    : Nat
  mode         : SyncMode
  timeout      : Nat
  divider      : Nat
  frameNumber  : Word
  tick         : Nat
  dividerCount : Nat
  timeoutCount : Nat
  arrivalLatch : Bool
  syncOut      : Bool
  skipCount    : Nat
  missCount    : Nat
  nextTick     : Nat
  deriving DecidableEq, Repr

/-- The engine state (R88). -/
inductive EngineState where
  | idle
  | walking
  deriving DecidableEq, Repr

/-- The frame context of the edge engine (R88). -/
structure Engine where
  state       : EngineState
  governing   : Bank
  parity      : Parity
  frameNumber : Word
  cursor      : Nat
  deriving DecidableEq, Repr

/-! ### Line block (R108, R117) -/

/-- The polarity of a line (R108). -/
inductive Polarity where
  | activeHigh
  | activeLow
  deriving DecidableEq, Repr

/-- A logical level (R108). -/
inductive Level where
  | inactive
  | active
  | released
  deriving DecidableEq, Repr

/-- A line's mode (R110). -/
inductive LineMode where
  | rest
  | scheduled
  | forcedActive
  | forcedInactive
  deriving DecidableEq, Repr

/-- A line record (R108). The group field is the one home of group membership: the member set of a group is the set
of lines that name it, so the two always agree. -/
structure Line where
  polarity  : Polarity
  restLevel : Level
  safeLevel : Level
  mode      : LineMode
  level     : Level
  age       : Nat
  group     : Option (Fin 6)
  deriving DecidableEq, Repr

/-- A group's policy (R117). -/
inductive Policy where
  | defer
  | trip
  deriving DecidableEq, Repr

/-- An entry of a deferral queue: a line and its wait in ticks (R117). -/
structure Waiting where
  line : Fin 16
  wait : Nat
  deriving DecidableEq, Repr

/-- A group record (R117); its member set is held in the lines' group fields. The queue is oldest first. -/
structure InterlockGroup where
  gap       : Nat
  policy    : Policy
  limit     : Nat
  queue     : List Waiting
  deferred  : Nat
  abandoned : Nat
  deriving DecidableEq, Repr

/-- A line record at power-on (R134). -/
def Line.powerOn : Line := ⟨.activeHigh, .inactive, .released, .rest, .inactive, Config.ageLimit, none⟩

/-- A group record at power-on (R134). -/
def InterlockGroup.powerOn : InterlockGroup := ⟨0, .defer, 0, [], 0, 0⟩

/-! ### Sampling path (R136 to R159) -/

/-- A limit window (R136). -/
structure Window where
  low  : Nat
  high : Nat
  deriving DecidableEq, Repr

/-- A slot record (R136). -/
structure Slot where
  channel     : Fin 9
  window      : Option Window
  tripOnLimit : Bool
  drops       : Nat
  deriving DecidableEq, Repr

/-- Where a request came from, with the frame number and tick that only an EDGE request has (R140). -/
inductive Origin where
  | edge (frame : Word) (tick : Nat)
  | software
  deriving DecidableEq, Repr

/-- A conversion request (R140); `entry` is the instant at which it entered the queue. -/
structure Request where
  slot    : Fin 8
  channel : Fin 9
  origin  : Origin
  entry   : Nat
  deriving DecidableEq, Repr

/-- The sample controller (R136, R142). The queue is oldest first. -/
structure Sampler where
  slots : Vector Slot 8
  queue : List Request
  deriving DecidableEq, Repr

/-- The request in conversion, with the raw value sampled and the wait recorded when it was taken (R146). -/
structure InConversion where
  request : Request
  raw     : BitVec 12
  wait    : Nat
  deriving DecidableEq, Repr

/-- The converter state (R145), each state with what it holds: the request in conversion, or the calibration run
state (R151) and the raw value of MREF that the calibration conversion in flight sampled. -/
inductive ConverterState where
  | idle
  | converting (current : InConversion)
  | calPending (current : InConversion)
  | calibrating (kept : Nat) (bit : Nat) (raw : BitVec 12)
  deriving DecidableEq, Repr

/-- The calibration report (R153). -/
inductive CalReport where
  | none
  | done
  | atLimit
  | cancelled
  deriving DecidableEq, Repr

/-- The converter (R145, R148, R149, R153). `since` is the instant at which the conversion in flight started, in the
model's count of CLK periods (log entry 6). -/
structure Converter where
  state   : ConverterState
  trim    : Nat
  divider : Nat
  report  : CalReport
  since   : Nat
  deriving DecidableEq, Repr

/-- The BELOW and ABOVE marks, never both set (R160). -/
inductive LimitMark where
  | neither
  | below
  | above
  deriving DecidableEq, Repr

/-- A result record (R160). -/
structure Result where
  slot    : Fin 8
  channel : Fin 9
  origin  : Origin
  value   : Nat
  wait    : Nat
  mark    : LimitMark
  gap     : Bool
  deriving DecidableEq, Repr

/-- The result ring (R161, R166, R169). The records are oldest first; the view is empty when it is `none`, and VALID
is set exactly when it holds a record (R167). -/
structure ResultRing where
  records   : List Result
  view      : Option Result
  watermark : Nat
  lost      : Nat
  deriving DecidableEq, Repr

/-- Slot Sn at power-on: channel n, no window, no trip-on-limit (R157). -/
def Slot.powerOn (n : Fin 8) : Slot := ⟨n.castLE (by decide), none, false, 0⟩

/-! ### Trip controller (R172 to R189) -/

/-- The trip state (R177). -/
inductive TripState where
  | armed
  | tripped
  deriving DecidableEq, Repr

/-- The pin level that counts as asserted (R173). -/
inductive FaultPolarity where
  | assertHigh
  | assertLow
  deriving DecidableEq, Repr

/-- A fault input: its configuration and its qualification filter (R173). `lastSample` is the instant of its last
sample in the model's count of CLK periods, absent before the first (log entry 6). -/
structure FaultInput where
  enabled    : Bool
  polarity   : FaultPolarity
  qualCount  : Nat
  count      : Nat
  qualified  : Bool
  lastSample : Option Nat
  deriving DecidableEq, Repr

/-- A trip record (R177); the frame number and tick are present together or absent together. -/
structure TripRecord where
  source : TripSource
  stamp  : Option (Word × Nat)
  deriving DecidableEq, Repr

/-- The trip controller (R173, R177, R187). The records are oldest first: the first is record 1. -/
structure TripController where
  state          : TripState
  records        : List TripRecord
  faults         : Vector FaultInput 2
  syncLostEnable : Bool
  overflow       : Nat
  deriving DecidableEq, Repr

/-- A fault input at power-on (R188). -/
def FaultInput.powerOn : FaultInput := ⟨false, .assertHigh, 0, 0, false, none⟩

/-! ### Interrupt unit and host port -/

/-- The interrupt unit: IFLAG and IENABLE, bits 12 to 0 (R204). -/
structure Interrupts where
  flags   : BitVec 13
  enables : BitVec 13
  deriving DecidableEq, Repr

/-- A result code of ACT_RESULT (R197). -/
inductive ResultCode where
  | ok
  | busy
  | state
  | tripped
  | full
  | duplicate
  | notFound
  | range
  | config
  | interlock
  | running
  | tooLate
  | faultActive
  deriving DecidableEq, Repr

/-- Where the host port stands in a transaction (R190, R193). -/
inductive PortPhase where
  /-- CS# is high. -/
  | idle
  /-- CS# has fallen and the command byte is being shifted in. -/
  | command
  /-- A read transaction: the word at the current address is being shifted out. -/
  | reading (current : Address)
  /-- A read transaction that has come to 10h, whose record read is still to be taken (R166). -/
  | recordDue
  /-- A write transaction with its current address. -/
  | writing (current : Address)
  /-- CS# is low but nothing is decoded until it has risen and fallen again. -/
  | ignoring
  deriving DecidableEq, Repr

/-- The host port: the transaction, the status-byte snapshot (R191), the word being shifted out on MISO (R192),
P0 to P3 (R198), and the two fields of ACT_RESULT (R197). -/
structure HostPort where
  phase      : PortPhase
  statusByte : Byte
  readWord   : Word
  p0         : Word
  p1         : Word
  p2         : Word
  p3         : Word
  code       : ResultCode
  actAddress : Address
  deriving DecidableEq, Repr

/-! ### The model's own fields -/

/-- A claim of the edge engine on a line (R111). -/
inductive Claim where
  | fall (line : Fin 16)
  | rise (line : Fin 16)
  | startFall (line : Fin 16) (target : Level)
  | startRise (line : Fin 16)
  deriving DecidableEq, Repr

/-- A sample request handed on by the edge engine (R94). -/
structure SampleTag where
  slot  : Fin 8
  frame : Word
  tick  : Nat
  /-- MODEL'S OWN: the number of the engine step that handed it on (log entry 2). -/
  step  : Nat
  deriving DecidableEq, Repr

/-- A trip source under way (R172). -/
structure SentSource where
  source : TripSource
  /-- MODEL'S OWN: the number of the last engine step when it was sent. For an INTERLOCK source this is the step whose
  claims caused it, since the claims of a step are taken before the next step (R104, log entries 2 and 5). -/
  step   : Nat
  deriving DecidableEq, Repr

/-- MODEL'S OWN (log entry 2): what one block has handed on and its receiver has not yet taken. The manual makes the
taking of each an event of its own (R91, R140, R172, R179, R184). -/
structure Transit where
  /-- The claims of each engine step, oldest step first (R111). -/
  claims : List (List Claim)
  /-- Sample requests from edge tags, oldest first (R140). -/
  tags : List SampleTag
  /-- Engine steps so far: the number of the last one. -/
  steps : Nat
  /-- Trip sources sent and not yet taken (R172). -/
  sources : List SentSource
  /-- Trip notices on their way to the plan store (R179). -/
  planNotices : Nat
  /-- Trip notices on their way to the sample controller and converter, oldest first; for one caused by an
  INTERLOCK source, the engine step whose sample requests precede it (R104). -/
  converterNotices : List (Option Nat)
  /-- The clear notice on its way to the timebase (R184). -/
  clearTimebase : Bool
  /-- The clear notice on its way to the line block (R184). -/
  clearLines : Bool
  /-- The sync timeout counter has reached W at the last tick and the expiry has not been taken (R82). -/
  syncExpiry : Bool
  /-- Groups whose head the guard has still to examine in the tick in progress (R125, log entry 4). -/
  headOwed : BitVec 6
  deriving DecidableEq, Repr

/-- MODEL'S OWN: the world outside and the free values as plain data. -/
structure Environment where
  /-- CLK periods that have passed (log entry 6). -/
  clk : Nat
  /-- The raw value each channel shows at its next sampling instant (log entry 3). -/
  analog : Vector (BitVec 12) 9
  /-- Samples taken so far: the argument of the next free analog value. -/
  samples : Nat
  /-- The groups whose head the next tick examines late (log entry 4). -/
  late : BitVec 6
  /-- Ticks taken so far: the argument of the next free order. -/
  ticks : Nat
  deriving DecidableEq, Repr

/-- The whole state. `rstLow` is the level of the RST# pin; `pending` is the queue of waiting commands, first in,
first out. -/
structure State where
  plan          : PlanStore
  validator     : Validator
  timebase      : Timebase
  engine        : Engine
  lines         : Vector Line 16
  groups        : Vector InterlockGroup 6
  tripIndicator : Bool
  sampler       : Sampler
  converter     : Converter
  ring          : ResultRing
  trip          : TripController
  interrupts    : Interrupts
  port          : HostPort
  rstLow        : Bool
  transit       : Transit
  environment   : Environment
  pending       : List Instr
  deriving DecidableEq, Repr

/-- The state after reset: the power-on values of every block (R15, R61, R86, R106, R134, R157, R170, R188, R197,
R198, R205), with RST# and CS# high. The first tick comes one CLK period later (R63). What the manual gives no value
for (the status byte and read word before the first transaction, the analog inputs, the first free order, the count
of CLK periods) is named in log entries 3, 4, 6 and 7. -/
def State.reset : State where
  plan := ⟨.powerOn, .powerOn, .a, 0#16, .editing, false, 0⟩
  validator := ⟨false, false, .none⟩
  timebase := ⟨.stopped, 1, .free, 0, 1, 0#16, 0, 0, 0, false, false, 0, 0, 1⟩
  engine := ⟨.idle, .a, .even, 0#16, 0⟩
  lines := tabulate fun _ => .powerOn
  groups := tabulate fun _ => .powerOn
  tripIndicator := false
  sampler := ⟨tabulate Slot.powerOn, []⟩
  converter := ⟨.idle, Config.resetTrim, 4, .none, 0⟩
  ring := ⟨[], none, 1, 0⟩
  trip := ⟨.armed, [], tabulate fun _ => .powerOn, false, 0⟩
  interrupts := ⟨0#13, 0#13⟩
  port := ⟨.idle, 0#8, 0#16, 0#16, 0#16, 0#16, 0#16, .ok, 0#7⟩
  rstLow := false
  transit := ⟨[], [], 0, [], 0, [], false, false, false, 0#6⟩
  environment := ⟨0, tabulate fun _ => 0#12, 0, 0#6, 0⟩
  pending := []

/-! ### How a step can stop -/

/-- No constructor: the manual names nothing that stops the part. A command that cannot be performed is refused by
the part itself, with a code in ACT_RESULT, and that is a next state. -/
inductive Fault where
  deriving DecidableEq, Repr

/-- Why a command has no meaning in the model. -/
inductive Refusal where
  /-- Raised by an arm of `exec` for a command that has no meaning yet; no arm does. Safe: the model stops. -/
  | notModelled (mnemonic : String)
  deriving DecidableEq, Repr

end Sys2Proof.Machine
end

