-- ==== Sys2Proof/Machine/Flags.lean ====
section
/-! DEFINITION. The interrupt flags (R204, R205) and the saturating counters (R202). -/

namespace Sys2Proof.Machine

/-- The thirteen interrupt flags (R204). -/
inductive Flag where
  | frame
  | taken
  | vpass
  | vfail
  | copied
  | results
  | limit
  | drop
  | defer
  | trip
  | caldone
  | syncmiss
  | skip
  deriving DecidableEq, Repr

/-- A flag's bit position in IFLAG and IENABLE (R204). -/
def Flag.bit : Flag → Nat
  | .frame => 0
  | .taken => 1
  | .vpass => 2
  | .vfail => 3
  | .copied => 4
  | .results => 5
  | .limit => 6
  | .drop => 7
  | .defer => 8
  | .trip => 9
  | .caldone => 10
  | .syncmiss => 11
  | .skip => 12

/-- The flag word with flag `f` alone. -/
def Flag.mask (f : Flag) : BitVec 13 := 1#13 <<< f.bit

/-- The flags with flag `f` set; a flag already set stays set (R204). -/
def Interrupts.withFlag (u : Interrupts) (f : Flag) : Interrupts := { u with flags := u.flags ||| f.mask }

/-- Whether flag `f` is set. -/
def State.flag (s : State) (f : Flag) : Bool := s.interrupts.flags.getLsbD f.bit

/-- Set flag `f`. -/
def State.setFlag (s : State) (f : Flag) : State := { s with interrupts := s.interrupts.withFlag f }

/-- Set flag `f` when `c` holds. -/
def State.setFlagIf (s : State) (c : Bool) (f : Flag) : State := if c then s.setFlag f else s

/-- INT# is low exactly when some flag and its enable are both set (R205). -/
def State.intLow (s : State) : Bool := s.interrupts.flags &&& s.interrupts.enables != 0#13

/-- One more on an 8-bit counter, which saturates at 255 (R202). -/
def bump8 (n : Nat) : Nat := min (n + 1) 255

/-- `k` more on the 16-bit skip counter, which saturates at 65535 (R80, R202). -/
def bump16 (n k : Nat) : Nat := min (n + k) 65535

end Sys2Proof.Machine
end

