-- ==== Sys2Proof/Machine/Operands.lean ====
section
/-! DEFINITION. How actions read P0 to P3 and how read-backs and registers lay out fields: the codes of every coded
parameter and the packed layouts (R64, R112, R114, R118, R120, R137, R175, R195, R199 to R201). -/

namespace Sys2Proof.Machine

/-! ### Codes -/

/-- 0 = INACTIVE, 1 = ACTIVE, 2 = RELEASED (R112, R120). -/
def Level.code : Level → Nat
  | .inactive => 0
  | .active => 1
  | .released => 2

def Level.ofCode : Nat → Option Level
  | 0 => some .inactive
  | 1 => some .active
  | 2 => some .released
  | _ => none

/-- 0 = ACTIVE_HIGH, 1 = ACTIVE_LOW (R112, R120). -/
def Polarity.code : Polarity → Nat
  | .activeHigh => 0
  | .activeLow => 1

def Polarity.ofCode : Nat → Option Polarity
  | 0 => some .activeHigh
  | 1 => some .activeLow
  | _ => none

/-- 0 = REST, 1 = SCHEDULED, 2 = FORCED_ACTIVE, 3 = FORCED_INACTIVE (R114, R120). -/
def LineMode.code : LineMode → Nat
  | .rest => 0
  | .scheduled => 1
  | .forcedActive => 2
  | .forcedInactive => 3

def LineMode.ofCode : Nat → Option LineMode
  | 0 => some .rest
  | 1 => some .scheduled
  | 2 => some .forcedActive
  | 3 => some .forcedInactive
  | _ => none

/-- 0 = DEFER, 1 = TRIP (R118, R121). -/
def Policy.code : Policy → Nat
  | .defer => 0
  | .trip => 1

def Policy.ofCode : Nat → Option Policy
  | 0 => some .defer
  | 1 => some .trip
  | _ => none

/-- 0 = FREE, 1 = FOLLOW (R64). -/
def SyncMode.ofCode : Nat → Option SyncMode
  | 0 => some .free
  | 1 => some .follow
  | _ => none

/-- 0 = no, 1 = yes (R137, R175). -/
def yesNoOfCode : Nat → Option Bool
  | 0 => some false
  | 1 => some true
  | _ => none

/-- 0 = ASSERT_HIGH, 1 = ASSERT_LOW (R175). -/
def FaultPolarity.ofCode : Nat → Option FaultPolarity
  | 0 => some .assertHigh
  | 1 => some .assertLow
  | _ => none

/-- 0 = RISE, 1 = FALL, 2 = MARK (R199). -/
def EdgeAction.code : EdgeAction → Nat
  | .rise => 0
  | .fall => 1
  | .mark => 2

def EdgeAction.ofCode : Nat → Option EdgeAction
  | 0 => some .rise
  | 1 => some .fall
  | 2 => some .mark
  | _ => none

/-- 0 = EVERY, 1 = EVEN, 2 = ODD (R199). -/
def Cadence.code : Cadence → Nat
  | .every => 0
  | .even => 1
  | .odd => 2

def Cadence.ofCode : Nat → Option Cadence
  | 0 => some .every
  | 1 => some .even
  | 2 => some .odd
  | _ => none

/-- 0 = EVEN, 1 = ODD (R195). -/
def Parity.code : Parity → Nat
  | .even => 0
  | .odd => 1

/-- 0 = EDITING, 1 = COPYING, 2 = VALIDATING, 3 = PENDING (R191). -/
def Staging.code : Staging → Nat
  | .editing => 0
  | .copying => 1
  | .validating => 2
  | .pending => 3

/-- The result codes of ACT_RESULT (R197). -/
def ResultCode.code : ResultCode → Nat
  | .ok => 0
  | .busy => 1
  | .state => 2
  | .tripped => 3
  | .full => 4
  | .duplicate => 5
  | .notFound => 6
  | .range => 7
  | .config => 8
  | .interlock => 9
  | .running => 10
  | .tooLate => 11
  | .faultActive => 12

/-- 0 = NONE, 1 = DONE, 2 = AT_LIMIT, 3 = CANCELLED (R195). -/
def CalReport.code : CalReport → Nat
  | .none => 0
  | .done => 1
  | .atLimit => 2
  | .cancelled => 3

/-- 1 = ALTERNATION, 2 = INTERLOCK, 3 = TRANSITION (R195). -/
def PlanCheck.code : PlanCheck → Nat
  | .alternation => 1
  | .interlock => 2
  | .transition => 3

/-- 1 = TRIP, 2 = SOFT_RESET (R195). -/
def CancelCause.code : CancelCause → Nat
  | .trip => 1
  | .softReset => 2

/-- One or zero for a bit of a register. -/
def bitOf (b : Bool) : Nat := if b then 1 else 0

/-- A number as a member of a numbered set of `n` things: absent when it names none. -/
def named (n k : Nat) : Option (Fin n) := if h : k < n then some ⟨k, h⟩ else none

/-! ### The edge-entry layout (R199) -/

/-- The sample tag of P1: bits 10 to 8 when bit 11 is set, otherwise absent (R199). -/
def tagOf (p1 : Word) : Option (Fin 8) :=
  if p1.getLsbD 11 then some (p1.extractLsb' 8 3).toFin else none

/-- The line of P1: bits 3 to 0 (R199). -/
def lineOf (p1 : Word) : Fin 16 := (p1.extractLsb' 0 4).toFin

/-- The entry that INSERT_EDGE reads from P0 and P1. It is absent when a field names no action or no cadence, or when
the action is MARK and the tag is absent: the CONFIG check of R24. -/
def entryOf (p0 p1 : Word) : Option Entry :=
  match EdgeAction.ofCode (p1.extractLsb' 4 2).toNat, Cadence.ofCode (p1.extractLsb' 6 2).toNat with
  | some action, some cadence =>
    if action = .mark ∧ tagOf p1 = none then none
    else some ⟨p0.toNat, lineOf p1, action, cadence, tagOf p1⟩
  | _, _ => none

/-- P0 of a read-back entry (R199). -/
def Entry.word0 (e : Entry) : Word := BitVec.ofNat 16 e.offset

/-- P1 of a read-back entry; the slot bits of an absent tag are 0 (R199). -/
def Entry.word1 (e : Entry) : Word :=
  BitVec.ofNat 16 (e.line.val + 16 * e.action.code + 64 * e.cadence.code
    + match e.tag with
      | some slot => 256 * slot.val + 2048
      | none => 0)

/-- P2 of a read-back: the entry count and the validated mark (R199). -/
def Plan.summary (p : Plan) : Word := BitVec.ofNat 16 (p.entries.length + 32768 * bitOf p.table.isSome)

/-! ### SET_TIMEBASE, SET_LINE_CONFIG, SET_SLOT, SET_FAULT -/

/-- The eight prescalers (R63). -/
def prescalers : List Nat := [1, 2, 4, 8, 16, 32, 64, 128]

/-- The four converter dividers (R145). -/
def converterDividers : List Nat := [2, 4, 8, 16]

/-- The settings of SET_TIMEBASE: prescaler, sync mode, W, D; absent when the action is refused with CONFIG (R64). -/
def timebaseSettings (p0 p1 p2 p3 : Word) : Option (Nat × SyncMode × Nat × Nat) :=
  match SyncMode.ofCode p1.toNat with
  | some mode =>
    if prescalers.contains p0.toNat ∧ 1 ≤ p3.toNat ∧ p3.toNat ≤ 16 then some (p0.toNat, mode, p2.toNat, p3.toNat)
    else none
  | none => none

/-- The line and the three settings of SET_LINE_CONFIG; absent when a parameter names no line, polarity or level
(R112). -/
def lineSettings (p0 p1 p2 p3 : Word) : Option (Fin 16 × Polarity × Level × Level) :=
  match named 16 p0.toNat, Polarity.ofCode p1.toNat, Level.ofCode p2.toNat, Level.ofCode p3.toNat with
  | some line, some polarity, some rest, some safe => some (line, polarity, rest, safe)
  | _, _, _, _ => none

/-- The window of SET_SLOT: `none` when the parameters break a constraint, `some none` for an absent window, whose
limits are not examined (R137). -/
def windowOf (present : Bool) (p2 p3 : Word) : Option (Option Window) :=
  if present then
    if p2.toNat ≤ p3.toNat ∧ p3.toNat ≤ 4095 then some (some ⟨p2.toNat, p3.toNat⟩) else none
  else some none

/-- The slot, channel, window and trip-on-limit choice of SET_SLOT; absent when refused with CONFIG (R137). -/
def slotSettings (p0 p1 p2 p3 : Word) : Option (Fin 8 × Fin 9 × Option Window × Bool) :=
  match named 8 (lowerByte p0), named 9 (upperByte p0), yesNoOfCode (lowerByte p1), yesNoOfCode (upperByte p1) with
  | some slot, some channel, some present, some tripOnLimit =>
    match windowOf present p2 p3 with
    | some window => some (slot, channel, window, tripOnLimit)
    | none => none
  | _, _, _, _ => none

/-- The enable and polarity of one fault input from its register (R175). -/
def faultSetting (p : Word) : Option (Bool × FaultPolarity) :=
  match yesNoOfCode (lowerByte p), FaultPolarity.ofCode (upperByte p) with
  | some enabled, some polarity => some (enabled, polarity)
  | _, _ => none

/-! ### Register layouts (R195, R200, R201) -/

/-- The timebase field of STATUS (R195): HALTED reads 5 with the controller ARMED and 6 with it TRIPPED. -/
def timebaseField (state : TimebaseState) (trip : TripState) : Nat :=
  match state with
  | .stopped => 0
  | .awaitSync => 1
  | .running => 2
  | .holding => 3
  | .stopping => 4
  | .halted => if trip = .tripped then 6 else 5

/-- The converter field of STATUS, from the state and the queue count (R195). -/
def converterField (state : ConverterState) (count : Nat) : Nat :=
  match state with
  | .idle => 0
  | .converting _ => 1 + count
  | .calPending _ => 6 + count
  | .calibrating _ _ _ => 11 + count

/-- The validation report registers 0Ch, 0Dh and 0Eh (R195); an absent field reads 0. -/
def Report.words : Report → Word × Word × Word
  | .none => (0#16, 0#16, 0#16)
  | .pass junction => (wordOfBytes 1 0, 0#16, BitVec.ofNat 16 (512 * bitOf junction))
  | .fail junction check parity offset line startRise =>
    (wordOfBytes 2 check.code, BitVec.ofNat 16 offset,
      BitVec.ofNat 16 (line.val + 256 * parity.code + 512 * bitOf junction + 1024 * bitOf startRise))
  | .cancelled cause => (wordOfBytes 3 cause.code, 0#16, 0#16)

/-- 0 for neither mark, 1 for BELOW, 2 for ABOVE (R200). -/
def LimitMark.code : LimitMark → Nat
  | .neither => 0
  | .below => 1
  | .above => 2

/-- The view's word at 10h: wait, GAP, channel and window code (R200). -/
def viewWord0 : Option Result → Word
  | none => 0#16
  | some r => BitVec.ofNat 16 (r.wait + 1024 * bitOf r.gap + 2048 * (1 + 3 * r.channel.val + r.mark.code))

/-- The view's word at 11h: the frame number, 0 when absent (R200). -/
def viewWord1 (view : Option Result) : Word :=
  match view with
  | some ⟨_, _, .edge frame _, _, _, _, _⟩ => frame
  | _ => 0#16

/-- The view's word at 12h: the tick, 0 when absent (R200). -/
def viewWord2 (view : Option Result) : Word :=
  match view with
  | some ⟨_, _, .edge _ tick, _, _, _, _⟩ => BitVec.ofNat 16 tick
  | _ => 0#16

/-- The view's word at 13h: value, slot and source (R200). -/
def viewWord3 : Option Result → Word
  | none => 0#16
  | some r => BitVec.ofNat 16 (r.value + 4096 * r.slot.val + 32768 * (if r.origin = .software then 1 else 0))

/-- The source code of a trip record (R201). -/
def sourceCode : TripSource → Nat
  | .fault0 => 0
  | .fault1 => 1
  | .limit _ => 2
  | .interlock _ => 3
  | .syncLost => 4
  | .software => 5

/-- The detail of a trip source, where it has one (R172). -/
def sourceDetail : TripSource → Option Nat
  | .limit slot => some slot.val
  | .interlock group => some group.val
  | _ => none

/-- P0 of READ_TRIP_RECORD (R201): source, detail with its presence, presence of the stamp, number of records. -/
def TripRecord.word0 (r : TripRecord) (count : Nat) : Word :=
  BitVec.ofNat 16 (sourceCode r.source
    + (match sourceDetail r.source with
       | some d => 8 + 16 * d
       | none => 0)
    + 128 * bitOf r.stamp.isSome + 256 * count)

/-- P1 of READ_TRIP_RECORD: the frame number, 0 when absent (R201). -/
def TripRecord.word1 (r : TripRecord) : Word :=
  match r.stamp with
  | some (frame, _) => frame
  | none => 0#16

/-- P2 of READ_TRIP_RECORD: the tick, 0 when absent (R201). -/
def TripRecord.word2 (r : TripRecord) : Word :=
  match r.stamp with
  | some (_, tick) => BitVec.ofNat 16 tick
  | none => 0#16

end Sys2Proof.Machine
end

