-- ==== Sys2Proof/Machine/Ops.lean ====
section
/-! DEFINITION. The named operations every block shares: words on the host port, the banks, messages between blocks,
the instant, and the form of an event. -/

namespace Sys2Proof.Machine

/-! ### The form of a command -/

/-- An event of the part: it happens unless RST# is low, while every block holds its power-on values (R86, R134,
R157, R170, R188, R193). -/
def State.event (s t : State) : Host.Outcome State Fault Refusal := .next (if s.rstLow then s else t)

/-- A write word at address `a` is completing: RST# is high and a write transaction stands at that address (R192). -/
def State.writingAt (s : State) (a : Address) : Bool := !s.rstLow && s.port.phase == .writing a

/-- The end of a complete write word at `a`: the current address increases by one and wraps from 7Fh to 00h (R192).
MISO is driven low in a write transaction (R190). -/
def State.endWriteWord (s : State) (a : Address) : State :=
  { s with port := { s.port with phase := .writing (a + 1#7), readWord := 0#16 } }

/-- A write word at `a` with the effect `t` on the registers: it reaches them when it is completing there. -/
def State.writeWord (s : State) (a : Address) (t : State) : Host.Outcome State Fault Refusal :=
  .next (if s.writingAt a then t.endWriteWord a else s)

/-- The outcome of an action: its code and the action register's address go to ACT_RESULT (R197). -/
def State.answer (s : State) (a : Address) (code : ResultCode) : State :=
  { s with port := { s.port with code := code, actAddress := a } }

/-- The action at address `a`, whose owner takes or refuses it in the step in which its word completes (R196). -/
def State.action (s : State) (a : Address) (owner : State → State × ResultCode) :
    Host.Outcome State Fault Refusal :=
  s.writeWord a ((owner s).1.answer a (owner s).2)

/-- A read-back writes P0 to P3 in one step (R198). -/
def State.setParams (s : State) (p0 p1 p2 p3 : Word) : State :=
  { s with port := { s.port with p0 := p0, p1 := p1, p2 := p2, p3 := p3 } }

/-! ### The banks (R9) -/

/-- The other bank. -/
def Bank.other : Bank → Bank
  | .a => .b
  | .b => .a

/-- The plan in a bank. -/
def PlanStore.bank (p : PlanStore) : Bank → Plan
  | .a => p.bankA
  | .b => p.bankB

/-- The active plan: the one in the bank the selector names (R9). -/
def PlanStore.active (p : PlanStore) : Plan := p.bank p.selector

/-- The staging plan: the one in the other bank (R9). -/
def PlanStore.stagingPlan (p : PlanStore) : Plan := p.bank p.selector.other

/-- The plan store with `plan` in the staging bank. -/
def PlanStore.withStaging (p : PlanStore) (plan : Plan) : PlanStore :=
  match p.selector with
  | .a => { p with bankB := plan }
  | .b => { p with bankA := plan }

/-- The swap, in one step: the selector flips, the generation increases by one modulo 65536, the staging state becomes
EDITING, the late-withdraw indicator is set (R9, R10, R54). -/
def PlanStore.swap (p : PlanStore) : PlanStore :=
  { p with selector := p.selector.other, generation := p.generation + 1#16, staging := .editing,
           lateWithdraw := true }

/-- A swap, which sets TAKEN (R55). -/
def State.takeSwap (s : State) : State := { s with plan := s.plan.swap }.setFlag .taken

/-- The trip controller is TRIPPED. -/
def State.tripped (s : State) : Bool := s.trip.state == .tripped

/-- The timebase is STOPPED. -/
def State.timebaseStopped (s : State) : Bool := s.timebase.state == .stopped

/-! ### Entries due in a frame (R2, R89) -/

/-- The other parity. -/
def Parity.other : Parity → Parity
  | .even => .odd
  | .odd => .even

/-- The parity of a frame number (R66). -/
def parityOf (frame : Word) : Parity := if frame.toNat % 2 = 0 then .even else .odd

/-- An entry of this cadence is due in frames of this parity (R89). -/
def Cadence.due (c : Cadence) (p : Parity) : Bool :=
  match c, p with
  | .every, _ => true
  | .even, .even => true
  | .odd, .odd => true
  | .even, .odd => false
  | .odd, .even => false

/-- An entry is due in a frame of this parity (R89). -/
def Entry.due (e : Entry) (p : Parity) : Bool := e.cadence.due p

/-- The start level of a line in a table (R7). -/
def StartTable.level (t : StartTable) (p : Parity) (line : Fin 16) : StartLevel :=
  match p with
  | .even => t.even[line]
  | .odd => t.odd[line]

/-! ### Messages between blocks (log entry 2) -/

/-- A block sends a trip source (R172), which carries the number of the engine step it follows (R104). -/
def State.sendSource (s : State) (source : TripSource) : State :=
  { s with transit := { s.transit with sources := s.transit.sources ++ [⟨source, s.transit.steps⟩] } }

/-- The edge engine hands one step's claims and sample requests onward (R91), and the step is counted: `tags` makes the
requests that carry its number. A step without claims hands the line block nothing. -/
def State.handOn (s : State) (claims : List Claim) (tags : Nat → List SampleTag) : State :=
  { s with transit := { s.transit with
      steps := s.transit.steps + 1,
      claims := if claims.isEmpty then s.transit.claims else s.transit.claims ++ [claims],
      tags := s.transit.tags ++ tags (s.transit.steps + 1) } }

/-! ### The world outside -/

/-- The present instant, in CLK periods. -/
def State.now (s : State) : Nat := s.environment.clk

/-- One CLK period passes: what a step does when no command waits (log entry 6). -/
def State.passClk (s : State) : State := { s with environment := { s.environment with clk := s.environment.clk + 1 } }

/-- The raw value of a channel at this instant (R146). -/
def State.rawValue (s : State) (channel : Fin 9) : BitVec 12 := s.environment.analog[channel]

/-- A channel has been sampled: what it shows at its next sampling instant is free (log entry 3). -/
def State.afterSample (s : State) (channel : Fin 9) : State :=
  { s with environment := { s.environment with
      analog := s.environment.analog.set channel (Config.analogLevel s.environment.samples channel),
      samples := s.environment.samples + 1 } }

end Sys2Proof.Machine
end

