-- ==== Sys2Proof/Machine/Guard.lean ====
section
/-! DEFINITION. The line block's shared operations and the interlock guard: levels and fall ages (R109), pins (R108),
the judgement of a rise (R122, R123), and the deferral queues (R125 to R127). -/

namespace Sys2Proof.Machine

/-! ### Lines and pins -/

/-- The six groups. -/
def allGroups : List (Fin 6) := [0, 1, 2, 3, 4, 5]

/-- The sixteen lines, in ascending order. -/
def allLines : List (Fin 16) := [0, 1, 2, 3, 4, 5, 6, 7, 8, 9, 10, 11, 12, 13, 14, 15]

/-- The level at a pin (R108). -/
inductive Pin where
  | low
  | high
  | highImpedance
  deriving DecidableEq, Repr

/-- The pin that a level and a polarity give (R108). -/
def Polarity.pin (p : Polarity) (l : Level) : Pin :=
  match l, p with
  | .active, .activeHigh => .high
  | .active, .activeLow => .low
  | .inactive, .activeHigh => .low
  | .inactive, .activeLow => .high
  | .released, _ => .highImpedance

/-- The pin of a line: released while RST# is low (R134), otherwise as its record gives (R108). -/
def State.linePin (s : State) (i : Fin 16) : Pin :=
  if s.rstLow then .highImpedance else s.lines[i].polarity.pin s.lines[i].level

/-- A line's group. -/
def State.groupOf (s : State) (i : Fin 16) : Option (Fin 6) := s.lines[i].group

/-- The members of a group, in ascending line order. -/
def State.members (s : State) (g : Fin 6) : List (Fin 16) := allLines.filter fun i => s.lines[i].group == some g

/-- Replace a line's record. -/
def State.setLine (s : State) (i : Fin 16) (l : Line) : State := { s with lines := s.lines.set i l }

/-- Replace a group's record. -/
def State.setGroupRecord (s : State) (g : Fin 6) (r : InterlockGroup) : State := { s with groups := s.groups.set g r }

/-- A line record at a new level: a fall, which is the end of being ACTIVE, sets the fall age to 0 (R109). -/
def Line.atLevel (l : Line) (level : Level) : Line :=
  { l with level := level, age := if l.level = .active ∧ level ≠ .active then 0 else l.age }

/-! ### The guard -/

/-- The rise of line `x` is clear: it has no group, or no other member is ACTIVE and every other member's fall age is
at least the group's gap (R122). -/
def State.clear (s : State) (x : Fin 16) : Bool :=
  match s.lines[x].group with
  | none => true
  | some g => (s.members g).all fun y => y == x || (s.lines[y].level != .active && s.groups[g].gap ≤ s.lines[y].age)

/-- The guard examines the head of a group's queue: a clear head rises and leaves the queue, its wait discarded
(R125). The next head is then not clear, since a member has just risen. -/
def State.examineHead (s : State) (g : Fin 6) : State :=
  match s.groups[g].queue with
  | [] => s
  | h :: rest =>
    if s.clear h.line then
      (s.setLine h.line (s.lines[h.line].atLevel .active)).setGroupRecord g { s.groups[g] with queue := rest }
    else s

/-- The heads of the groups in `which` are examined. -/
def State.headsExamined (s : State) (which : Fin 6 → Bool) : State :=
  allGroups.foldl (fun t g => if which g then t.examineHead g else t) s

/-- The guard examines the head of the queue of a line's group. -/
def State.examineFor (s : State) (x : Fin 16) : State :=
  match s.lines[x].group with
  | none => s
  | some g => s.examineHead g

/-- A line takes a level. When it falls, the guard examines the head of its group's queue in the same step (R125). -/
def State.moveLine (s : State) (x : Fin 16) (level : Level) : State :=
  let t := s.setLine x (s.lines[x].atLevel level)
  if s.lines[x].level = .active ∧ level ≠ .active then t.examineFor x else t

/-- A line is waiting in its group's queue. -/
def State.isWaiting (s : State) (x : Fin 16) : Bool :=
  match s.lines[x].group with
  | none => false
  | some g => s.groups[g].queue.any fun w => w.line == x

/-- A waiting rise of a line is removed without rising and without moving a counter (R127), and the guard examines the
head in the same step, whichever entry left (R125). -/
def State.removeWaiting (s : State) (x : Fin 16) : State :=
  match s.lines[x].group with
  | none => s
  | some g =>
    if s.isWaiting x then
      (s.setGroupRecord g { s.groups[g] with
        queue := s.groups[g].queue.filter fun w => w.line != x }).examineHead g
    else s

/-- A member joins the tail of its group's queue with wait 0. With a deferral limit of 0 the entry is abandoned in the
same step, so the claim counts as deferred and as abandoned (R123, R126). -/
def State.deferRise (s : State) (g : Fin 6) (x : Fin 16) : State :=
  let r := s.groups[g]
  if r.limit = 0 then
    (s.setGroupRecord g { r with deferred := bump8 r.deferred, abandoned := bump8 r.abandoned }).setFlag .defer
  else s.setGroupRecord g { r with queue := r.queue ++ [⟨x, 0⟩], deferred := bump8 r.deferred }

/-- The judgement of a RISE claim or start rise of line `x` (R123): active, nothing changes; ungrouped, it rises;
waiting, nothing changes; the queue empty and the rise clear, it rises; otherwise deferred, or refused with an
INTERLOCK source (R124). -/
def State.judgeRise (s : State) (x : Fin 16) : State :=
  if s.lines[x].level = .active then s
  else match s.lines[x].group with
    | none => s.moveLine x .active
    | some g =>
      if s.isWaiting x then s
      else if s.groups[g].queue.isEmpty && s.clear x then s.moveLine x .active
      else match s.groups[g].policy with
        | .defer => s.deferRise g x
        | .trip => s.sendSource (.interlock g)

/-- The line a claim is for. -/
def Claim.line : Claim → Fin 16
  | .fall line | .rise line | .startFall line _ | .startRise line => line

/-- One claim on a SCHEDULED line with the trip indicator clear; on any other line, and while the indicator is set, it
changes nothing (R111). -/
def State.takeClaim (s : State) (c : Claim) : State :=
  if s.tripIndicator || s.lines[c.line].mode != .scheduled then s
  else match c with
    | .fall x => (s.removeWaiting x).moveLine x .inactive
    | .startFall x target => (s.removeWaiting x).moveLine x target
    | .rise x => s.judgeRise x
    | .startRise x => (s.removeWaiting x).judgeRise x

/-- The claims of one engine step, each judged before the next (R111). -/
def State.takeClaimStep (s : State) (claims : List Claim) : State := claims.foldl State.takeClaim s

/-- Every claim step under way is taken, the oldest first. -/
def State.takeAllClaims (s : State) : State :=
  s.transit.claims.foldl State.takeClaimStep { s with transit := { s.transit with claims := [] } }

/-! ### Waits and expiry -/

/-- A queue without its first entry whose wait has reached the limit, when it has one. -/
def withoutExpired (limit : Nat) : List Waiting → Option (List Waiting)
  | [] => none
  | w :: rest => if limit ≤ w.wait then some rest else (withoutExpired limit rest).map fun r => w :: r

/-- The oldest entry of a group whose wait has reached the limit is abandoned: it leaves without rising, the abandoned
counter increases, DEFER is set (R126), and the guard examines the head in the same step (R125). That of several entries at
the limit the oldest expires first, and the next head is examined before it would expire too, is the model's choice
(DESIGN CHOICE, log entry 21). -/
def State.expireOne (s : State) (g : Fin 6) : State :=
  match withoutExpired s.groups[g].limit s.groups[g].queue with
  | none => s
  | some queue =>
    ((s.setGroupRecord g
      { s.groups[g] with queue := queue, abandoned := bump8 s.groups[g].abandoned }).setFlag .defer).examineHead g

/-- Every entry of a group whose wait has reached the limit is abandoned, the oldest first. -/
def State.expireGroup (s : State) (g : Fin 6) : State :=
  s.groups[g].queue.foldl (fun t _ => t.expireOne g) s

/-- A line's age one tick later, up to 1024 (R109). -/
def Line.aged (l : Line) : Line := { l with age := min (l.age + 1) Config.ageLimit }

/-- A group one tick later: the wait of every entry increases by one (R125). -/
def InterlockGroup.aged (r : InterlockGroup) : InterlockGroup :=
  { r with queue := r.queue.map fun w => { w with wait := w.wait + 1 } }

/-- A tick advances every fall age and every wait (R63, R109, R125). -/
def State.advanceAges (s : State) : State :=
  { s with lines := mapTable s.lines Line.aged, groups := mapTable s.groups InterlockGroup.aged }

/-- At a tick the guard examines the head of every non-empty queue (R125): at once, or, where the free order says so,
later in the tick (R126, R128, log entry 4). -/
def State.examineAtTick (s : State) : State :=
  let owed : BitVec 6 := BitVec.ofFnLE fun g => !s.groups[g].queue.isEmpty && s.environment.late.getLsbD g.val
  { s with transit := { s.transit with headOwed := owed } }.headsExamined fun g => !owed.getLsbD g.val

/-- The examinations that the last tick left for later are done. -/
def State.examineOwed (s : State) : State :=
  { s with transit := { s.transit with headOwed := 0#6 } }.headsExamined fun g => s.transit.headOwed.getLsbD g.val

/-! ### Notices to the line block -/

/-- Every deferral queue is emptied; no counter moves (R127). -/
def State.emptyQueues (s : State) : State := { s with groups := mapTable s.groups fun r => { r with queue := [] } }

/-- A SCHEDULED line goes to its rest level (R131). -/
def Line.stopped (l : Line) : Line := if l.mode = .scheduled then l.atLevel l.restLevel else l

/-- The stop notice at the line block: queues emptied, SCHEDULED lines to rest (R131). Claims handed on before it are
taken before it, so that the lines stand at rest afterwards (R110, log entry 5). -/
def State.stopLines (s : State) : State :=
  let t := s.takeAllClaims.emptyQueues
  { t with lines := mapTable t.lines Line.stopped }

/-- A line at the trip notice: its safe level, and REST mode in place of a FORCED mode (R132). -/
def Line.safe (l : Line) : Line :=
  { l.atLevel l.safeLevel with mode := if l.mode = .scheduled then .scheduled else .rest }

/-- The trip notice at the line block (R132). -/
def State.tripLines (s : State) : State :=
  let t := s.emptyQueues
  { t with lines := mapTable t.lines Line.safe, tripIndicator := true }

/-- The clear notice at the line block: the indicator is cleared and every line takes its rest level (R133). Claims
from before the trip, which change nothing while the indicator is set, are gone (log entry 5). -/
def State.clearLines (s : State) : State :=
  { s with lines := mapTable s.lines fun l => l.atLevel l.restLevel, tripIndicator := false,
           transit := { s.transit with claims := [] } }

/-- A line at soft reset: REST mode, and its rest level unless the trip indicator holds it at its safe level (R135). -/
def Line.softReset (indicator : Bool) (l : Line) : Line :=
  { (if indicator then l else l.atLevel l.restLevel) with mode := .rest }

/-- A group at soft reset: its queue emptied and its counters 0 (R135). -/
def InterlockGroup.softReset (r : InterlockGroup) : InterlockGroup :=
  { r with queue := [], deferred := 0, abandoned := 0 }

end Sys2Proof.Machine
end

