-- ==== Sys2Proof/Machine/Engine.lean ====
section
/-! DEFINITION. The edge engine (Chapter 5): walking a frame, the frame start, the skip count. -/

namespace Sys2Proof.Machine

/-- The plan in the governing bank (R89). -/
def State.governingPlan (s : State) : Plan := s.plan.bank s.engine.governing

/-- A line is SCHEDULED, read in the step in which a claim would be issued (R92). -/
def State.scheduled (s : State) (line : Fin 16) : Bool := s.lines[line].mode == .scheduled

/-- The run of entries at offset `o` from the cursor onward (R90). -/
def Engine.run (e : Engine) (entries : List Entry) (o : Nat) : List Entry :=
  (entries.drop e.cursor).takeWhile fun x => x.offset == o

/-- The claims of fired entries: FALL claims in ascending line order, then RISE claims in ascending line order (R91),
for SCHEDULED lines alone (R92). -/
def State.planClaims (s : State) (fired : List Entry) : List Claim :=
  ((fired.filter fun e => e.action == .fall && s.scheduled e.line).map fun e => .fall e.line)
    ++ ((fired.filter fun e => e.action == .rise && s.scheduled e.line).map fun e => .rise e.line)

/-- The sample requests of fired entries, in ascending line order, whatever the entry's action and its line's mode
(R91, R92, R94); `step` is the number of the engine step. -/
def Engine.tags (e : Engine) (fired : List Entry) (o : Nat) (step : Nat) : List SampleTag :=
  fired.filterMap fun x => x.tag.map fun slot => ⟨slot, e.frameNumber, o, step⟩

/-- The offset event for `o` with the claims `before` handed on first in the same step (none but at a frame start):
the run at the cursor, its due entries fired, the cursor past the whole run (R90, R91, R98). -/
def State.offsetEventAfter (s : State) (before : List Claim) (o : Nat) : State :=
  let run := s.engine.run s.governingPlan.entries o
  let fired := run.filter fun x => x.due s.engine.parity
  { s with engine := { s.engine with cursor := s.engine.cursor + run.length } }.handOn
    (before ++ s.planClaims fired) (s.engine.tags fired o)

/-- The offset event for `o` (R90). -/
def State.offsetEvent (s : State) (o : Nat) : State := s.offsetEventAfter [] o

/-- The level a start level asks of a line: REST is the line's rest level in this step (R96). -/
def StartLevel.target (l : StartLevel) (rest : Level) : Level :=
  match l with
  | .active => .active
  | .inactive => .inactive
  | .rest => rest

/-- The start level of a line in the governing plan. The table is present in every active bank (R8); were it absent,
the line would have the trivial table's level. -/
def State.startLevel (s : State) (line : Fin 16) : StartLevel :=
  match s.governingPlan.table with
  | some t => t.level s.engine.parity line
  | none => .rest

/-- The target of a line at the frame start (R96). -/
def State.startTarget (s : State) (line : Fin 16) : Level := (s.startLevel line).target s.lines[line].restLevel

/-- The start claims: start falls of the SCHEDULED lines whose target is INACTIVE or RELEASED, then start rises of
those whose target is ACTIVE, each in ascending line order (R97). -/
def State.startClaims (s : State) : List Claim :=
  ((allLines.filter fun i => s.scheduled i && s.startTarget i != .active).map fun i =>
      .startFall i (s.startTarget i))
    ++ ((allLines.filter fun i => s.scheduled i && s.startTarget i == .active).map .startRise)

/-- The frame start of frame `frame`: the engine walks, latches the selector, takes the number and parity, sets the
cursor to 0, and hands on the start claims and then the offset-0 entries in the same step (R95, R98). -/
def State.frameStart (s : State) (frame : Word) : State :=
  let t := { s with engine := ⟨.walking, s.plan.selector, parityOf frame, frame, 0⟩ }
  t.offsetEventAfter t.startClaims 0

/-- The engine becomes IDLE; its other fields keep their values (R88). -/
def State.idleEngine (s : State) : State := { s with engine := { s.engine with state := .idle } }

/-- The skip count of the frame in progress: the entries from the cursor on that are due in its parity (R100). -/
def State.skipped (s : State) : Nat :=
  ((s.governingPlan.entries.drop s.engine.cursor).filter fun x => x.due s.engine.parity).length

/-- The skipped entries are counted and SKIP is set when there is one (R80). -/
def State.countSkipped (s : State) : State :=
  { s with timebase := { s.timebase with skipCount := bump16 s.timebase.skipCount s.skipped } }.setFlagIf
    (s.skipped != 0) .skip

end Sys2Proof.Machine
end

