-- ==== Sys2Proof/Machine/Frame.lean ====
section
/-! DEFINITION. Boundaries, the stop notice and the tick of the frame timebase (Chapter 4). -/

namespace Sys2Proof.Machine

/-- The frame length in force: that of the active plan, which governs the frame in progress (R65). -/
def State.frameLength (s : State) : Nat := s.plan.active.frameLength

/-- The boundary notice at the plan store: a PENDING swap is taken; otherwise nothing changes (R18, R53, R54). -/
def State.boundaryNotice (s : State) : State := if s.plan.staging = .pending then s.takeSwap else s

/-- The divider counter advances; at D it restarts at 0 and FRAME is set (R77). -/
def State.advanceDivider (s : State) : State :=
  if s.timebase.dividerCount + 1 < s.timebase.divider then
    { s with timebase := { s.timebase with dividerCount := s.timebase.dividerCount + 1 } }
  else { s with timebase := { s.timebase with dividerCount := 0 } }.setFlag .frame

/-- The timebase becomes STOPPED and sends the stop notice to the line block and the edge engine (R72). The notice empties
the queues before a wait that has come to its limit at this very tick expires, so that entry is not counted as abandoned
(DESIGN CHOICE: R126 and R131 give the two no order, log entry 20). -/
def State.becomeStopped (s : State) : State :=
  { s with timebase := { s.timebase with state := .stopped },
           transit := { s.transit with syncExpiry := false } }.stopLines.idleEngine

/-- A boundary, in one step (R75): the counter to 0 and the frame number one greater; SYNC_OUT pulsed and the divider
advanced; the boundary notice; then STOPPED with the stop notice out of STOPPING, and otherwise RUNNING with the frame
start of the new frame. -/
def State.boundary (s : State) : State :=
  let stopping : Bool := s.timebase.state == .stopping
  let t := { s with timebase := { s.timebase with
    tick := 0, frameNumber := s.timebase.frameNumber + 1#16, syncOut := true } }
  let u := t.advanceDivider.boundaryNotice
  if stopping then u.becomeStopped
  else { u with timebase := { u.timebase with state := .running, timeoutCount := 0 },
                transit := { u.transit with syncExpiry := false } }.frameStart u.timebase.frameNumber

/-- A boundary by an arrival in RUNNING or STOPPING: the later entries of the frame are skipped and counted first
(R80, R100). -/
def State.boundaryByArrival (s : State) : State := s.countSkipped.boundary

/-- Frame 0 begins at START in FREE mode or at the first arrival: RUNNING, SYNC_OUT pulsed, the frame start handed; no
boundary notice, and the divider does not advance (R69, R79). -/
def State.beginFrameZero (s : State) : State :=
  { s with timebase := { s.timebase with state := .running, syncOut := true } }.frameStart s.timebase.frameNumber

/-- The counter advances by one and the offset event is handed; in FOLLOW mode while RUNNING, at L - 1, the timebase
then becomes HOLDING with the sync timeout counter at 0 (R74, R81). -/
def State.nextOffset (s : State) : State :=
  let o := s.timebase.tick + 1
  let t := { s with timebase := { s.timebase with tick := o } }.offsetEvent o
  if s.timebase.state = .running ∧ s.timebase.mode = .follow ∧ o + 1 = s.frameLength then
    { t with timebase := { t.timebase with state := .holding, timeoutCount := 0 } }
  else t

/-- A tick in RUNNING or STOPPING without an arrival: the next offset, or the boundary after offset L - 1 (R71, R74). -/
def State.walkTick (s : State) : State :=
  if s.timebase.tick + 1 < s.frameLength then s.nextOffset else s.boundary

/-- A tick in HOLDING without an arrival: the sync timeout counter increases by one, and the timeout expires when it
reaches W; with W = 0, or with the counter held at W, nothing changes (R81, R82). -/
def State.holdTick (s : State) : State :=
  if s.timebase.timeoutCount < s.timebase.timeout then
    { s with timebase := { s.timebase with timeoutCount := s.timebase.timeoutCount + 1 },
             transit := { s.transit with
               syncExpiry := s.timebase.timeoutCount + 1 == s.timebase.timeout } }
  else s

/-- The timebase at a tick, with `arrival` an arrival acted on at it (R74, R78 to R81). -/
def State.timebaseTick (s : State) (arrival : Bool) : State :=
  match s.timebase.state, arrival with
  | .stopped, _ => s
  | .halted, _ => s
  | .awaitSync, true => s.beginFrameZero
  | .awaitSync, false => s
  | .running, true => s.boundaryByArrival
  | .running, false => s.walkTick
  | .stopping, true => s.boundaryByArrival
  | .stopping, false => s.walkTick
  | .holding, true => s.boundary
  | .holding, false => s.holdTick

/-- The expiry of the sync timeout in HOLDING: with SYNC_LOST enabled the source is sent and the timebase stays in
HOLDING; otherwise the expiry is a boundary, counted as a sync miss (R82). -/
def State.syncExpires (s : State) : State :=
  if s.trip.syncLostEnable then
    { s with transit := { s.transit with syncExpiry := false } }.sendSource .syncLost
  else
    { s with timebase := { s.timebase with missCount := bump8 s.timebase.missCount } }.boundary.setFlag .syncmiss

/-- The expiry of the last tick is taken if nothing has taken it yet. -/
def State.settleSync (s : State) : State :=
  if s.transit.syncExpiry && s.timebase.state == .holding then s.syncExpires else s

/-- What the last tick left under way is taken before the next tick advances the ages: a sync expiry, the claims of
the engine, the examinations left for later, and the waits that reached their limit (R82, R91, R109, R125, R126, log
entry 5). -/
def State.settleTick (s : State) : State := allGroups.foldl State.expireGroup s.settleSync.takeAllClaims.examineOwed

/-- The tick clock at a tick: a SYNC_OUT pulse ends (R76), the arrival latch is cleared (R78), and the next tick comes
one prescaler later (R63); the free order of the next tick's examinations is drawn (log entry 4). -/
def State.tickClock (s : State) : State :=
  { s with
    timebase := { s.timebase with
      syncOut := false, arrivalLatch := false, nextTick := s.environment.clk + s.timebase.prescaler },
    environment := { s.environment with
      late := Config.headExaminedLate s.environment.ticks, ticks := s.environment.ticks + 1 } }

/-- One tick (R63, R74): what the last tick left is settled; then ages and waits advance, the guard examines the heads,
and the timebase takes the tick with the arrival latched before it, which only FOLLOW mode acts on (R78). -/
def State.oneTick (s : State) : State :=
  let t := s.settleTick
  let arrival := t.timebase.arrivalLatch && t.timebase.mode == .follow
  t.advanceAges.examineAtTick.tickClock.timebaseTick arrival

end Sys2Proof.Machine
end

