-- ==== Sys2Proof/Machine/LineControl.lean ====
section
/-! DEFINITION. The line block's actions and events (Chapter 6). -/

namespace Sys2Proof.Machine

/-- A request of the line block finds the device tripped: the controller is TRIPPED, or the clear notice has not yet
reached the line block (R112, R114). -/
def State.linesTripped (s : State) : Bool := s.tripped || s.tripIndicator

/-- A member of a group keeps rest level INACTIVE and a safe level that is not ACTIVE (R108). -/
def Line.mayBeMember (rest safe : Level) : Bool := rest == .inactive && safe != .active

/-! ### SET_LINE_CONFIG -/

/-- A taken SET_LINE_CONFIG: the three settings, and the new rest level at once for a line in REST or SCHEDULED mode
(R113). -/
def State.applyLineConfig (s : State) (i : Fin 16) (polarity : Polarity) (rest safe : Level) : State :=
  let t := s.setLine i { s.lines[i] with polarity := polarity, restLevel := rest, safeLevel := safe }
  if s.lines[i].mode = .rest ∨ s.lines[i].mode = .scheduled then t.moveLine i rest else t

/-- SET_LINE_CONFIG at its owner: TRIPPED, RUNNING, CONFIG (R112). -/
def State.setLineConfig (s : State) : State × ResultCode :=
  if s.linesTripped then (s, .tripped)
  else if !s.timebaseStopped then (s, .running)
  else match lineSettings s.port.p0 s.port.p1 s.port.p2 s.port.p3 with
    | none => (s, .config)
    | some (i, polarity, rest, safe) =>
      if s.lines[i].group.isSome && !Line.mayBeMember rest safe then (s, .config)
      else (s.applyLineConfig i polarity rest safe, .ok)

/-! ### SET_LINE_MODE -/

/-- A line's mode. -/
def State.setMode (s : State) (i : Fin 16) (mode : LineMode) : State := s.setLine i { s.lines[i] with mode := mode }

/-- SET_LINE_MODE with FORCED_ACTIVE, decided at once: an active line, an ungrouped one, or a member whose rise is
clear becomes ACTIVE and only then leaves its queue; otherwise refused with INTERLOCK (R116). -/
def State.forceActive (s : State) (i : Fin 16) : State × ResultCode :=
  if s.lines[i].level = .active then (s.setMode i .forcedActive, .ok)
  else if s.clear i then (((s.setMode i .forcedActive).moveLine i .active).removeWaiting i, .ok)
  else (s, .interlock)

/-- A SCHEDULED line stands at rest while the timebase is STOPPED or AWAIT_SYNC (R110). -/
def TimebaseState.holdsRest : TimebaseState → Bool
  | .stopped | .awaitSync => true
  | .running | .holding | .stopping | .halted => false

/-- The effect of each new mode (R115, R116). -/
def State.applyMode (s : State) (i : Fin 16) (mode : LineMode) : State × ResultCode :=
  match mode with
  | .rest => (((s.setMode i .rest).removeWaiting i).moveLine i s.lines[i].restLevel, .ok)
  | .scheduled =>
    (if s.timebase.state.holdsRest then (s.setMode i .scheduled).moveLine i s.lines[i].restLevel
     else s.setMode i .scheduled, .ok)
  | .forcedActive => s.forceActive i
  | .forcedInactive => (((s.setMode i .forcedInactive).removeWaiting i).moveLine i .inactive, .ok)

/-- SET_LINE_MODE at its owner: TRIPPED, CONFIG, INTERLOCK (R114). -/
def State.setLineMode (s : State) : State × ResultCode :=
  if s.linesTripped then (s, .tripped)
  else match named 16 s.port.p0.toNat, LineMode.ofCode s.port.p1.toNat with
    | some i, some mode => s.applyMode i mode
    | _, _ => (s, .config)

/-! ### SET_GROUP -/

/-- The lines a member mask names (R118). -/
def maskLines (mask : Word) : List (Fin 16) := allLines.filter fun i => mask.getLsbD i.val

/-- A proposed member set breaks a constraint: one line or more than four, a line of another group, or a line whose
levels a member may not have (R118). -/
def State.memberConflict (s : State) (g : Fin 6) (proposed : List (Fin 16)) : Bool :=
  proposed.length == 1 || 4 < proposed.length ||
    proposed.any fun i =>
      (s.lines[i].group.isSome && s.lines[i].group != some g)
        || !Line.mayBeMember s.lines[i].restLevel s.lines[i].safeLevel

/-- A taken SET_GROUP, in one step: gap, policy and limit, the group fields of the lines joining and leaving, the queue
emptied, the counters kept (R119). -/
def State.applyGroup (s : State) (g : Fin 6) (policy : Policy) (proposed : List (Fin 16)) (gap limit : Nat) : State :=
  { s.setGroupRecord g { s.groups[g] with gap := gap, policy := policy, limit := limit, queue := [] } with
    lines := tabulate fun i => { s.lines[i] with
      group := if i ∈ proposed then some g else if s.lines[i].group = some g then none else s.lines[i].group } }

/-- SET_GROUP at its owner: RUNNING, BUSY, CONFIG, INTERLOCK (R118). The trip indicator is none of these checks, so the
action is taken once the timebase has taken the clear notice, although R132 calls it refused while the indicator is
set (DEDUCED, log entry 18). -/
def State.setGroup (s : State) : State × ResultCode :=
  if !s.timebaseStopped then (s, .running)
  else if s.plan.staging = .validating ∨ s.plan.staging = .pending then (s, .busy)
  else match named 6 (lowerByte s.port.p0), Policy.ofCode (upperByte s.port.p0) with
    | some g, some policy =>
      let proposed := maskLines s.port.p1
      if 1023 < s.port.p2.toNat ∨ 1023 < s.port.p3.toNat then (s, .config)
      else if s.memberConflict g proposed then (s, .config)
      else if 1 < (proposed.filter fun i => s.lines[i].level == .active).length then (s, .interlock)
      else (s.applyGroup g policy proposed s.port.p2.toNat s.port.p3.toNat, .ok)
    | _, _ => (s, .config)

/-! ### Read-backs -/

/-- READ_LINE at its owner (R120). -/
def State.readLine (s : State) : State × ResultCode :=
  match named 16 s.port.p0.toNat with
  | none => (s, .config)
  | some i =>
    let l := s.lines[i]
    let group := match l.group with
      | some g => g.val
      | none => 255
    (s.setParams (BitVec.ofNat 16 l.age) (wordOfBytes l.mode.code l.level.code)
      (wordOfBytes l.polarity.code group) (wordOfBytes l.restLevel.code l.safeLevel.code), .ok)

/-- The member set of a group as a mask (R121). -/
def State.memberMask (s : State) (g : Fin 6) : Word :=
  BitVec.ofNat 16 ((s.members g).map fun i => 2 ^ i.val).sum

/-- The line of the queue's `k`-th entry, 255 where there is none (R121). -/
def queueLine (queue : List Waiting) (k : Nat) : Nat :=
  match queue[k]? with
  | some w => w.line.val
  | none => 255

/-- READ_GROUP at its owner (R121). -/
def State.readGroup (s : State) : State × ResultCode :=
  match named 6 s.port.p0.toNat with
  | none => (s, .config)
  | some g =>
    let r := s.groups[g]
    if s.port.p1 = 0#16 then
      (s.setParams (s.memberMask g) (BitVec.ofNat 16 r.gap) (BitVec.ofNat 16 r.limit)
        (BitVec.ofNat 16 r.policy.code), .ok)
    else if s.port.p1 = 1#16 then
      (s.setParams (BitVec.ofNat 16 r.queue.length) (wordOfBytes (queueLine r.queue 0) (queueLine r.queue 1))
        (wordOfBytes (queueLine r.queue 2) (queueLine r.queue 3))
        (BitVec.ofNat 16 (match r.queue.head? with
          | some w => w.wait
          | none => 0)), .ok)
    else (s, .config)

/-! ### Events -/

/-- The oldest claim step on its way to the line block is taken (R111); without one nothing happens (log entry 8). -/
def State.lineBlockTakesClaims (s : State) : State :=
  match s.transit.claims with
  | [] => s
  | step :: rest => { s with transit := { s.transit with claims := rest } }.takeClaimStep step

/-- The clear notice on its way to the line block is taken (R133, R184). -/
def State.lineBlockTakesClear (s : State) : State :=
  if s.transit.clearLines then { s with transit := { s.transit with clearLines := false } }.clearLines else s

/-! ### The commands -/

def execSetLineConfig (s : State) : Host.Outcome State Fault Refusal := s.action 0x2C#7 State.setLineConfig

def execSetLineMode (s : State) : Host.Outcome State Fault Refusal := s.action 0x2D#7 State.setLineMode

def execSetGroup (s : State) : Host.Outcome State Fault Refusal := s.action 0x2E#7 State.setGroup

def execReadGroup (s : State) : Host.Outcome State Fault Refusal := s.action 0x2F#7 State.readGroup

def execReadLine (s : State) : Host.Outcome State Fault Refusal := s.action 0x3C#7 State.readLine

/-- ENGINE_CLAIMS (R111). -/
def execEngineClaims (s : State) : Host.Outcome State Fault Refusal := s.event s.lineBlockTakesClaims

/-- DEFERRAL_EXPIRY of a group: its oldest entry whose wait has reached the limit is abandoned (R126); without one
nothing happens (log entry 8). -/
def execDeferralExpiry (group : Fin 6) (s : State) : Host.Outcome State Fault Refusal := s.event (s.expireOne group)

/-- CLEAR_NOTICE_LINE_BLOCK (R133). -/
def execClearNoticeLineBlock (s : State) : Host.Outcome State Fault Refusal := s.event s.lineBlockTakesClear

end Sys2Proof.Machine
end

