-- ==== Sys2Proof/Machine/PlanEdit.lean ====
section
/-! DEFINITION. Editing, copying and reading the banks (Chapters 1 and 2). -/

namespace Sys2Proof.Machine

/-- The key order of entries: offset and then line (R6). -/
def Entry.keyBefore (e f : Entry) : Bool := e.offset < f.offset || (e.offset == f.offset && e.line < f.line)

/-- An entry has this key (R3). -/
def Entry.hasKey (e : Entry) (offset : Nat) (line : Fin 16) : Bool := e.offset == offset && e.line == line

/-- Insert an entry at the place that key order gives it (R25). -/
def insertEntry (e : Entry) : List Entry → List Entry
  | [] => [e]
  | f :: rest => if f.keyBefore e then f :: insertEntry e rest else e :: f :: rest

/-- The staging bank with `plan` in it. -/
def State.setStaging (s : State) (plan : Plan) : State := { s with plan := s.plan.withStaging plan }

/-- The staging state. -/
def State.setStagingState (s : State) (staging : Staging) : State := { s with plan := { s.plan with staging := staging } }

/-- INSERT_EDGE at its owner: the state check first (R21), then CONFIG, RANGE, DUPLICATE, FULL (R24); a taken entry goes
to its place and the mark and table go (R23, R25). -/
def State.insertEdge (s : State) : State × ResultCode :=
  let p := s.plan.stagingPlan
  if s.plan.staging ≠ .editing then (s, .busy)
  else match entryOf s.port.p0 s.port.p1 with
    | none => (s, .config)
    | some e =>
      if p.frameLength ≤ e.offset then (s, .range)
      else if p.entries.any fun f => f.hasKey e.offset e.line then (s, .duplicate)
      else if Config.planCapacity ≤ p.entries.length then (s, .full)
      else (s.setStaging { p with entries := insertEntry e p.entries, table := none }, .ok)

/-- REMOVE_EDGE at its owner (R21, R26). -/
def State.removeEdge (s : State) : State × ResultCode :=
  let p := s.plan.stagingPlan
  let offset := s.port.p0.toNat
  let line := lineOf s.port.p1
  if s.plan.staging ≠ .editing then (s, .busy)
  else if p.entries.any fun f => f.hasKey offset line then
    (s.setStaging { p with entries := p.entries.filter fun f => !f.hasKey offset line, table := none }, .ok)
  else (s, .notFound)

/-- CLEAR_STAGE at its owner: an empty list keeps its mark and table (R21, R27). -/
def State.clearStage (s : State) : State × ResultCode :=
  let p := s.plan.stagingPlan
  if s.plan.staging ≠ .editing then (s, .busy)
  else if p.entries.isEmpty then (s, .ok)
  else (s.setStaging { p with entries := [], table := none }, .ok)

/-- SET_FRAME_LENGTH at its owner: the value the bank holds already keeps the mark and table (R21, R28). -/
def State.setFrameLength (s : State) : State × ResultCode :=
  let p := s.plan.stagingPlan
  let length := s.port.p0.toNat
  if s.plan.staging ≠ .editing then (s, .busy)
  else if length < Config.minFrameLength then (s, .range)
  else if p.entries.any fun f => length ≤ f.offset then (s, .range)
  else if length = p.frameLength then (s, .ok)
  else (s.setStaging { p with frameLength := length, table := none }, .ok)

/-- COPY_ACTIVE at its owner: the copy starts and the late-withdraw indicator is cleared (R21, R29, R57). -/
def State.copyActive (s : State) : State × ResultCode :=
  if s.plan.staging ≠ .editing then (s, .busy)
  else ({ s with plan := { s.plan with staging := .copying, lateWithdraw := false, since := s.now } }, .ok)

/-- The copy completes (R30, R34). -/
def State.completeCopy (s : State) : State :=
  if s.plan.staging = .copying then ((s.setStaging s.plan.active).setStagingState .editing).setFlag .copied else s

/-- A read-back of entry `index` of a plan, with P3 given: taken, or refused with NOT_FOUND with P2 and P3 written
(R11). -/
def State.readEntry (s : State) (p : Plan) (p3 : Word) : State × ResultCode :=
  match p.entries[s.port.p0.toNat]? with
  | some e => (s.setParams e.word0 e.word1 p.summary p3, .ok)
  | none => (s.setParams s.port.p0 s.port.p1 p.summary p3, .notFound)

/-- READ_STAGE_ENTRY at its owner (R11, R12). -/
def State.readStageEntry (s : State) : State × ResultCode :=
  if s.plan.staging = .copying then (s, .busy)
  else s.readEntry s.plan.stagingPlan (BitVec.ofNat 16 s.plan.stagingPlan.frameLength)

/-- READ_ACTIVE_ENTRY at its owner (R11, R13). -/
def State.readActiveEntry (s : State) : State × ResultCode := s.readEntry s.plan.active s.plan.generation

/-! ### The commands -/

def execInsertEdge (s : State) : Host.Outcome State Fault Refusal := s.action 0x20#7 State.insertEdge

def execRemoveEdge (s : State) : Host.Outcome State Fault Refusal := s.action 0x21#7 State.removeEdge

def execClearStage (s : State) : Host.Outcome State Fault Refusal := s.action 0x22#7 State.clearStage

def execCopyActive (s : State) : Host.Outcome State Fault Refusal := s.action 0x23#7 State.copyActive

def execSetFrameLength (s : State) : Host.Outcome State Fault Refusal := s.action 0x24#7 State.setFrameLength

/-- COPY_COMPLETION: no copy completes unless one is in flight (log entry 8). -/
def execCopyCompletion (s : State) : Host.Outcome State Fault Refusal := s.event s.completeCopy

def execReadStageEntry (s : State) : Host.Outcome State Fault Refusal := s.action 0x25#7 State.readStageEntry

def execReadActiveEntry (s : State) : Host.Outcome State Fault Refusal := s.action 0x26#7 State.readActiveEntry

end Sys2Proof.Machine
end

