-- ==== Sys2Proof/Machine/Validator.lean ====
section
/-! DEFINITION. Validation (Chapter 3): a plan read as its cycle, the start levels, and the three checks. Every check
walks a list of occurrences in cycle order behind a history of the occurrences before it, most recent first; the
history of a cycle starts as the whole cycle once more, which is what counting backwards cyclically means. -/

namespace Sys2Proof.Machine

/-- A rise or fall of a line at an instant of the walk, with what a report says of it (R42, R45, R49). -/
structure Occurrence where
  time      : Nat
  line      : Fin 16
  rises     : Bool
  parity    : Parity
  offset    : Nat
  startRise : Bool
  deriving DecidableEq, Repr

/-- Cycle order: by position, then falls before rises, then by line (R41). -/
def Occurrence.before (o p : Occurrence) : Bool :=
  o.time < p.time || (o.time == p.time
    && ((!o.rises && p.rises) || (o.rises == p.rises && o.line < p.line)))

/-- Insert an occurrence before the first one it does not follow. -/
def insertOccurrence (o : Occurrence) : List Occurrence → List Occurrence
  | [] => [o]
  | p :: rest => if p.before o then p :: insertOccurrence o rest else o :: p :: rest

/-- Occurrences in cycle order (R41). -/
def inCycleOrder : List Occurrence → List Occurrence
  | [] => []
  | o :: rest => insertOccurrence o (inCycleOrder rest)

/-- The occurrence of an entry in a frame of parity `parity` that begins at `base`; a MARK has none, and neither has
an entry that is not due (R41). -/
def Entry.occurrence (e : Entry) (parity : Parity) (base : Nat) : Option Occurrence :=
  if e.due parity && e.action != .mark then
    some ⟨base + e.offset, e.line, e.action == .rise, parity, e.offset, false⟩
  else none

/-- The occurrences of one frame of a plan, in cycle order (R41). -/
def Plan.frameOccurrences (p : Plan) (parity : Parity) (base : Nat) : List Occurrence :=
  inCycleOrder (p.entries.filterMap fun e => e.occurrence parity base)

/-- The frame of parity `first` from `base` and the other frame after it, in cycle order: the cycle of R2 when `first`
is EVEN and `base` is 0. -/
def Plan.twoFrames (p : Plan) (first : Parity) (base : Nat) : List Occurrence :=
  p.frameOccurrences first base ++ p.frameOccurrences first.other (base + p.frameLength)

/-- The cycle of a plan, an even frame followed by an odd frame (R2, R41). -/
def Plan.cycle (p : Plan) : List Occurrence := p.twoFrames .even 0

/-- The most recent occurrence of a line in a history. -/
def lastOf (history : List Occurrence) (line : Fin 16) : Option Occurrence := history.find? fun o => o.line == line

/-- The most recent fall of a line in a history (R44). -/
def lastFallOf (history : List Occurrence) (line : Fin 16) : Option Occurrence :=
  history.find? fun o => o.line == line && !o.rises

/-- A line is ACTIVE after a history: its most recent occurrence there rose. A line with none is INACTIVE (R44). -/
def activeAfter (history : List Occurrence) (line : Fin 16) : Bool :=
  match lastOf history line with
  | some o => o.rises
  | none => false

/-! ### ALTERNATION (R42) and the start levels (R43) -/

/-- The first occurrence that does what its predecessor did, walking behind a history. -/
def firstRepeat (history : List Occurrence) : List Occurrence → Option Occurrence
  | [] => none
  | o :: rest =>
    match lastOf history o.line with
    | some p => if p.rises = o.rises then some o else firstRepeat (o :: history) rest
    | none => firstRepeat (o :: history) rest

/-- The first repeating occurrence of a plan in cycle order (R42). -/
def Plan.firstRepeat (p : Plan) : Option Occurrence := Machine.firstRepeat p.cycle.reverse p.cycle

/-- A start level from the last occurrence before the frame start; without one the line is not switched (R43). -/
def startLevelOf : Option Occurrence → StartLevel
  | some o => if o.rises then .active else .inactive
  | none => .rest

/-- The start level of a line for a parity: the level left by its last occurrence before that frame starts, counting
backwards cyclically (R7, R43). -/
def Plan.startLevel (p : Plan) (parity : Parity) (line : Fin 16) : StartLevel :=
  startLevelOf (lastOf (p.twoFrames parity 0).reverse line)

/-- The start-level table of a plan (R43). -/
def Plan.derivedTable (p : Plan) : StartTable :=
  ⟨tabulate fun line => p.startLevel .even line, tabulate fun line => p.startLevel .odd line⟩

/-! ### INTERLOCK (R44, R45) -/

/-- The group table as a check reads it: the group of each line and the gap of each group (R46). -/
structure GroupTable where
  groupOf : Fin 16 → Option (Fin 6)
  gapOf   : Fin 6 → Nat

/-- The group table as it stands. -/
def State.groupTable (s : State) : GroupTable := ⟨fun i => s.lines[i].group, fun g => s.groups[g].gap⟩

/-- The condition of R45 at a rise, behind a history: every other member of the line's group is INACTIVE, and has no
most recent fall or one at a distance of at least the gap. A line of no group is not examined. -/
def GroupTable.riseAllowed (t : GroupTable) (history : List Occurrence) (o : Occurrence) : Bool :=
  match t.groupOf o.line with
  | none => true
  | some g =>
    allLines.all fun y =>
      y == o.line || t.groupOf y != some g ||
        (!activeAfter history y &&
          match lastFallOf history y with
          | some f => t.gapOf g ≤ o.time - f.time
          | none => true)

/-- The first rise of a walk at which the condition does not hold (R45, R49). -/
def GroupTable.firstConflict (t : GroupTable) (history : List Occurrence) : List Occurrence → Option Occurrence
  | [] => none
  | o :: rest =>
    if o.rises && !t.riseAllowed history o then some o else t.firstConflict (o :: history) rest

/-- The first conflict of a plan on its own cycle: the cycle is walked once behind the cycle before it (R45). -/
def Plan.firstInterlock (p : Plan) (t : GroupTable) : Option Occurrence :=
  t.firstConflict p.cycle.reverse (p.twoFrames .even (2 * p.frameLength))

/-! ### TRANSITION (R47 to R49) -/

/-- The start events at tick 0 of the new frame: falls of the lines that are ACTIVE and do not start ACTIVE, then rises
of the lines that are INACTIVE and start ACTIVE, in ascending line order (R48). -/
def startEvents (history : List Occurrence) (new : Plan) (parity : Parity) (time : Nat) : List Occurrence :=
  ((allLines.filter fun i => activeAfter history i && new.startLevel parity i != .active).map fun i =>
      ⟨time, i, false, parity, 0, true⟩)
    ++ ((allLines.filter fun i => !activeAfter history i && new.startLevel parity i == .active).map fun i =>
      ⟨time, i, true, parity, 0, true⟩)

/-- The first conflict at the junction into the new plan's frame of parity `parity`: behind the active plan's cycle,
whose last frame has the other parity, come the start events and then the new frame's occurrences (R48, R49). -/
def junctionConflict (t : GroupTable) (old new : Plan) (parity : Parity) : Option Occurrence :=
  let history := (old.twoFrames parity 0).reverse
  let boundary := 2 * old.frameLength
  t.firstConflict history (startEvents history new parity boundary ++ new.frameOccurrences parity boundary)

/-- TRANSITION: the junction into the even frame first, then the one into the odd frame (R47). -/
def transitionConflict (t : GroupTable) (old new : Plan) : Option Occurrence :=
  (junctionConflict t old new .even).or (junctionConflict t old new .odd)

/-! ### The whole validation -/

/-- The report of a failure (R42, R45, R49, R50); TRANSITION alone says whether the rise is a start-level rise, and it
alone has checked the junction. -/
def Occurrence.report (o : Occurrence) (check : PlanCheck) : Report :=
  .fail (check == .transition) check o.parity o.offset o.line o.startRise

/-- The failure of a validation, if there is one: ALTERNATION, then INTERLOCK, then TRANSITION when it runs; the first
check that fails ends the validation (R41, R47). -/
def validationFailure (t : GroupTable) (old new : Plan) (junction : Bool) : Option Report :=
  match new.firstRepeat with
  | some o => some (o.report .alternation)
  | none =>
    match new.firstInterlock t with
    | some o => some (o.report .interlock)
    | none =>
      if junction then (transitionConflict t old new).map fun o => o.report .transition
      else none

end Sys2Proof.Machine
end

