-- ==== Sys2Proof/Machine/Commit.lean ====
section
/-! DEFINITION. The commit path (Chapter 3): COMMIT, the completion of a validation, WITHDRAW, and the trip notice at
the plan store. -/

namespace Sys2Proof.Machine

/-- COMMIT at its owner: BUSY outside EDITING, TRIPPED while tripped; taken, validation starts, whether TRANSITION will
run is noted, and the late-withdraw indicator is cleared (R38, R57). From CLEAR_TRIP on the controller is ARMED and a
COMMIT is taken, whether or not the clear notice has been taken: check 2 of R38 and R51 say so, and the last sentence
of R38 would refuse it until the notice is taken. From the trip on it is refused, whether or not the plan store has taken
the trip notice: check 2 says so, and the sentence before would take it until then (DEDUCED, log entry 16). -/
def State.commit (s : State) : State × ResultCode :=
  if s.plan.staging ≠ .editing then (s, .busy)
  else if s.tripped then (s, .tripped)
  else ({ s with plan := { s.plan with staging := .validating, lateWithdraw := false, since := s.now },
                 validator := { s.validator with running := true, junction := !s.timebaseStopped } }, .ok)

/-- A pass: the table is written with the mark, the report is PASS, VPASS is set; the swap is taken at once when the
timebase is STOPPED, and otherwise waits in PENDING (R51, R55). -/
def State.validationPasses (s : State) : State :=
  let p := s.plan.stagingPlan
  let t := { s.setStaging { p with table := some p.derivedTable } with
    validator := ⟨false, s.validator.junction, .pass s.validator.junction⟩ }.setFlag .vpass
  if s.timebaseStopped then t.takeSwap else t.setStagingState .pending

/-- A failure: EDITING, the report FAIL with its fields, VFAIL; the staging bank is left as it was (R52, R55). -/
def State.validationFails (s : State) (report : Report) : State :=
  { s.setStagingState .editing with validator := ⟨false, s.validator.junction, report⟩ }.setFlag .vfail

/-- The validation completes, when the validator runs on a commit in VALIDATING (R40, R51, R52). -/
def State.completeValidation (s : State) : State :=
  if s.plan.staging = .validating ∧ s.validator.running then
    match validationFailure s.groupTable s.plan.active s.plan.stagingPlan s.validator.junction with
    | none => s.validationPasses
    | some report => s.validationFails report
  else s

/-- A commit in VALIDATING or PENDING is cancelled: EDITING, the validator idle, the report CANCELLED; in any other
staging state nothing changes (R59, R61). -/
def State.cancelCommit (s : State) (cause : CancelCause) : State :=
  if s.plan.staging = .validating ∨ s.plan.staging = .pending then
    { s.setStagingState .editing with validator := ⟨false, s.validator.junction, .cancelled cause⟩ }
  else s

/-- The late-withdraw indicator (R57). -/
def State.setLateWithdraw (s : State) (late : Bool) : State := { s with plan := { s.plan with lateWithdraw := late } }

/-- WITHDRAW at its owner; taken or refused, it clears the late-withdraw indicator (R56, R57). -/
def State.withdraw (s : State) : State × ResultCode :=
  let t := s.setLateWithdraw false
  match s.plan.staging with
  | .validating => ({ t.setStagingState .editing with validator := { s.validator with running := false } }, .ok)
  | .pending => (t.setStagingState .editing, .ok)
  | .editing => (t, if s.plan.lateWithdraw then .tooLate else .state)
  | .copying => (t, .state)

/-- The oldest trip notice on its way to the plan store is taken (R59, R179). A notice that a CLEAR_TRIP has overtaken is
still taken, and cancels a commit taken in between (DESIGN CHOICE, log entry 17). -/
def State.planStoreTakesNotice (s : State) : State :=
  match s.transit.planNotices with
  | 0 => s
  | k + 1 => { s with transit := { s.transit with planNotices := k } }.cancelCommit .trip

/-! ### The commands -/

def execCommit (s : State) : Host.Outcome State Fault Refusal := s.action 0x27#7 State.commit

/-- VALIDATION_COMPLETION: no validation completes unless one is in flight (log entry 8). -/
def execValidationCompletion (s : State) : Host.Outcome State Fault Refusal := s.event s.completeValidation

def execWithdraw (s : State) : Host.Outcome State Fault Refusal := s.action 0x28#7 State.withdraw

/-- TRIP_NOTICE_PLAN_STORE: each notice is taken once, and only after it was sent (R179, log entry 8). -/
def execTripNoticePlanStore (s : State) : Host.Outcome State Fault Refusal := s.event s.planStoreTakesNotice

end Sys2Proof.Machine
end

