-- ==== Sys2Proof/Machine/HostPort.lean ====
section
/-! DEFINITION. The host port (Chapter 10): the status byte, the register map as a read word returns it, the
transaction, and the writable registers. -/

namespace Sys2Proof.Machine

/-! ### Read-outs -/

/-- The timebase is AWAIT_SYNC, RUNNING, HOLDING or STOPPING (R67, R191). -/
def TimebaseState.underWay : TimebaseState → Bool
  | .awaitSync | .running | .holding | .stopping => true
  | .stopped | .halted => false

/-- The status byte at this instant (R191). -/
def State.statusNow (s : State) : Byte :=
  BitVec.ofNat 8 (128 * bitOf s.tripped + 64 * bitOf s.intLow + 16 * s.plan.staging.code
    + 8 * bitOf s.timebase.state.underWay + 4 * bitOf (!s.ring.records.isEmpty)
    + 2 * bitOf (s.port.code != .ok) + bitOf (s.converter.state != .idle))

/-- STATUS, 02h (R195). -/
def State.statusWord (s : State) : Word :=
  BitVec.ofNat 16 (timebaseField s.timebase.state s.trip.state + 8 * s.plan.staging.code
    + 32 * converterField s.converter.state s.sampler.queue.length + 512 * s.converter.report.code
    + 2048 * s.converter.trim)

/-- The counter at an address of 40h to 57h (R202). -/
def State.counterWord (s : State) (k : Nat) : Word :=
  if k = 0x40 then BitVec.ofNat 16 s.timebase.skipCount
  else if k = 0x41 then BitVec.ofNat 16 s.timebase.missCount
  else if h : 0x42 ≤ k ∧ k < 0x48 then
    BitVec.ofNat 16 (s.groups[(⟨k - 0x42, by omega⟩ : Fin 6)].deferred)
  else if h : 0x48 ≤ k ∧ k < 0x4E then
    BitVec.ofNat 16 (s.groups[(⟨k - 0x48, by omega⟩ : Fin 6)].abandoned)
  else if h : 0x4E ≤ k ∧ k < 0x56 then
    BitVec.ofNat 16 (s.sampler.slots[(⟨k - 0x4E, by omega⟩ : Fin 8)].drops)
  else if k = 0x56 then BitVec.ofNat 16 s.ring.lost
  else if k = 0x57 then BitVec.ofNat 16 s.trip.overflow
  else 0#16

/-- The value of a read word at an address, as the register stands (R192, R194). The word at 10h is that of the view;
the record read that comes before it is RECORD_READ (R166). An action register, and an address with no register,
reads 0. -/
def State.readRegister (s : State) (a : Address) : Word :=
  match a.toNat with
  | 0x00 => 0x5A08#16
  | 0x01 => wordOfBytes s.port.code.code s.port.actAddress.toNat
  | 0x02 => s.statusWord
  | 0x03 => s.interrupts.flags.setWidth 16
  | 0x04 => s.interrupts.enables.setWidth 16
  | 0x05 => s.port.p0
  | 0x06 => s.port.p1
  | 0x07 => s.port.p2
  | 0x08 => s.port.p3
  | 0x09 => s.plan.generation
  | 0x0A => s.timebase.frameNumber
  | 0x0B => BitVec.ofNat 16 s.timebase.tick
  | 0x0C => s.validator.report.words.1
  | 0x0D => s.validator.report.words.2.1
  | 0x0E => s.validator.report.words.2.2
  | 0x10 => viewWord0 s.ring.view
  | 0x11 => viewWord1 s.ring.view
  | 0x12 => viewWord2 s.ring.view
  | 0x13 => viewWord3 s.ring.view
  | 0x14 => wordOfBytes s.ring.records.length s.ring.watermark
  | 0x15 => BitVec.ofNat 16 s.trip.records.length
  | k => s.counterWord k

/-- MISO is driven while CS# is low and RST# is high; otherwise it is at high impedance (R190, R193). A port that
ignores the transaction it finds in progress at the release of RST# drives nothing (log entry 7). -/
def State.misoDriven (s : State) : Bool :=
  !s.rstLow && match s.port.phase with
    | .idle | .ignoring => false
    | .command | .reading _ | .recordDue | .writing _ => true

/-! ### The transaction -/

/-- CS# falls: a transaction begins and the status byte is taken (R191). While RST# is low the port decodes nothing,
then and until CS# has risen and fallen again (R193). CS# cannot fall when it is low. -/
def execCsFall (s : State) : Host.Outcome State Fault Refusal :=
  .next (if s.port.phase = .idle then
      if s.rstLow then { s with port := { s.port with phase := .ignoring } }
      else { s with port := { s.port with phase := .command, statusByte := s.statusNow } }
    else s)

/-- A read word starts at an address, which becomes the current one: its value is taken here, and what the register shows
later does not change it (R192). At 10h the value is that of the record read, which RECORD_READ takes (R166). -/
def State.startReadWord (s : State) (a : Address) : State :=
  if a = 0x10#7 then { s with port := { s.port with phase := .recordDue } }
  else { s with port := { s.port with phase := .reading a, readWord := s.readRegister a } }

/-- The command byte completes: bit 7 is the direction and bits 6 to 0 the starting address (R190, R192). In a read
transaction this is the start of the first word. -/
def execCommandByte (byte : Byte) (s : State) : Host.Outcome State Fault Refusal :=
  let a : Address := byte.setWidth 7
  s.event (if s.port.phase = .command then
      if byte.getLsbD 7 then s.startReadWord a
      else { s with port := { s.port with phase := .writing a, readWord := 0#16 } }
    else s)

/-- CS# rises: the transaction ends and a partial word is discarded (R193). -/
def execCsRise (s : State) : Host.Outcome State Fault Refusal :=
  .next { s with port := { s.port with phase := .idle } }

/-! ### Write words -/

/-- A write word at an address whose write has no row of its own: it sets one of P0 to P3, and is ignored at a
read-only address or at one with no register (R193, R198). -/
def State.writeRegister (s : State) (a : Address) (word : Word) : State :=
  match a.toNat with
  | 0x05 => { s with port := { s.port with p0 := word } }
  | 0x06 => { s with port := { s.port with p1 := word } }
  | 0x07 => { s with port := { s.port with p2 := word } }
  | 0x08 => { s with port := { s.port with p3 := word } }
  | _ => s

/-- A word completes on the port. In a write transaction it is a write word at the current address, where no row of its
own stands for it (R192, R193, R198). In a read transaction MOSI is not examined (R190): the word shifted out ends, the
current address increases by one and wraps from 7Fh to 00h, and the next read word starts (R192). That the row
REGISTER_WRITE stands for such a word too is the model's choice (DESIGN CHOICE, log entry 19). -/
def execRegisterWrite (word : Word) (s : State) : Host.Outcome State Fault Refusal :=
  match s.port.phase with
  | .writing a =>
    if (commandAt a word).isSome then .next s
    else s.writeWord a (s.writeRegister a word)
  | .reading a => s.event (s.startReadWord (a + 1#7))
  | .idle | .command | .recordDue | .ignoring => .next s

/-- A write word at IFLAG clears each flag whose bit is 1 and leaves the others (R204). -/
def execIflagWrite (word : Word) (s : State) : Host.Outcome State Fault Refusal :=
  s.writeWord 0x03#7
    { s with interrupts := { s.interrupts with flags := s.interrupts.flags &&& ~~~(word.setWidth 13) } }

/-- A write word at IENABLE replaces all 13 enables with its bits 12 to 0 (R205). -/
def execIenableWrite (word : Word) (s : State) : Host.Outcome State Fault Refusal :=
  s.writeWord 0x04#7 { s with interrupts := { s.interrupts with enables := word.setWidth 13 } }

end Sys2Proof.Machine
end

