-- ==== Sys2Proof/Machine/ResultStore.lean ====
section
/-! DEFINITION. The result ring and its read-out view (Chapter 8). -/

namespace Sys2Proof.Machine

/-- The mark a window gives a value: below the low limit, above the high limit, or neither; no window, neither
(R164). -/
def limitMark (window : Option Window) (value : Nat) : LimitMark :=
  match window with
  | none => .neither
  | some w => if value < w.low then .below else if w.high < value then .above else .neither

/-- The append of a record (R162): judged against its slot's window as the slot holds it now; a full ring loses its
head, the lost counter increases and the new record carries GAP (R163); a marked record sets LIMIT and, for a
trip-on-limit slot, sends the LIMIT source (R165); a count at or above the watermark sets RESULTS (R169). -/
def State.append (s : State) (slot : Fin 8) (channel : Fin 9) (origin : Origin) (value wait : Nat) : State :=
  let full : Bool := Config.ringCapacity ≤ s.ring.records.length
  let mark := limitMark s.sampler.slots[slot].window value
  let kept := if full then s.ring.records.drop 1 else s.ring.records
  let records := kept ++ [⟨slot, channel, origin, value, wait, mark, full⟩]
  let t := { s with ring := { s.ring with
    records := records, lost := if full then bump8 s.ring.lost else s.ring.lost } }
  let u := t.setFlagIf (mark != .neither) .limit
  let v := if mark != .neither && s.sampler.slots[slot].tripOnLimit then u.sendSource (.limit slot) else u
  v.setFlagIf (s.ring.watermark ≤ records.length) .results

/-- The record read: the head record leaves into the view; an empty ring empties the view (R166, R167). -/
def State.readHead (s : State) : State :=
  match s.ring.records with
  | [] => { s with ring := { s.ring with view := none } }
  | r :: rest => { s with ring := { s.ring with records := rest, view := some r } }

/-- SET_RING at its owner: CONFIG for 0 or above 16; RESULTS is set when the count is at or above the new watermark
(R169). -/
def State.setRing (s : State) : State × ResultCode :=
  let w := s.port.p0.toNat
  if w = 0 ∨ 16 < w then (s, .config)
  else ({ s with ring := { s.ring with watermark := w } }.setFlagIf (w ≤ s.ring.records.length) .results, .ok)

/-! ### The commands -/

/-- RECORD_READ: the read word at 10h starts, in a read transaction that has come to 10h as its starting address or by
the increment (R166, R192). The word returned is the view's. -/
def execRecordRead (s : State) : Host.Outcome State Fault Refusal :=
  match s.port.phase with
  | .recordDue =>
    let t := s.readHead
    s.event { t with port := { t.port with phase := .reading 0x10#7, readWord := t.readRegister 0x10#7 } }
  | .idle | .command | .reading _ | .writing _ | .ignoring => .next s

def execSetRing (s : State) : Host.Outcome State Fault Refusal := s.action 0x3B#7 State.setRing

end Sys2Proof.Machine
end

