-- ==== Sys2Proof/Machine/Sampling.lean ====
section
/-! DEFINITION. Slots, the conversion queue and the converter (Chapter 7). -/

namespace Sys2Proof.Machine

/-! ### The converter -/

/-- MREF, channel 8 (R136). -/
def mref : Fin 9 := 8

/-- The wait of a request taken now: whole converter periods since it entered the queue, up to 1023 (R146). -/
def State.waitOf (s : State) (r : Request) : Nat := min ((s.now - r.entry) / s.converter.divider) Config.waitLimit

/-- The converter's state. -/
def State.setConverterState (s : State) (c : ConverterState) : State :=
  { s with converter := { s.converter with state := c } }

/-- The converter takes a request: it samples the captured channel and records the wait (R146). -/
def State.startConversion (s : State) (r : Request) : State :=
  { s with converter := { s.converter with
      state := .converting ⟨r, s.rawValue r.channel, s.waitOf r⟩, since := s.now } }.afterSample r.channel

/-- The converter is free: it takes the head of the queue, or becomes IDLE when there is none (R145, R147). -/
def State.serveQueue (s : State) : State :=
  match s.sampler.queue with
  | [] => s.setConverterState .idle
  | r :: rest => { s with sampler := { s.sampler with queue := rest } }.startConversion r

/-- A calibration conversion of MREF begins (R151). -/
def State.startTrial (s : State) (kept bit : Nat) : State :=
  { s with converter := { s.converter with
      state := .calibrating kept bit (s.rawValue mref), since := s.now } }.afterSample mref

/-- A calibration begins: kept 0, bit position 4 (R151). -/
def State.beginCalibration (s : State) : State := s.startTrial 0 4

/-- The calibration report. -/
def State.setCalReport (s : State) (r : CalReport) : State := { s with converter := { s.converter with report := r } }

/-- The value of a conversion: raw plus trim minus 16, clamped to 0 to 4095 (R147). -/
def corrected (raw : BitVec 12) (trim : Nat) : Nat := min (raw.toNat + trim - 16) 4095

/-- A conversion completes with its record handed to the ring; then the queue is served, or the pending calibration
begins (R147). -/
def State.completeConversion (s : State) : State :=
  match s.converter.state with
  | .converting c =>
    (s.append c.request.slot c.request.channel c.request.origin (corrected c.raw s.converter.trim) c.wait).serveQueue
  | .calPending c =>
    (s.append c.request.slot c.request.channel c.request.origin
      (corrected c.raw s.converter.trim) c.wait).beginCalibration
  | .idle | .calibrating _ _ _ => s

/-- The kept value after one trial: the trial when the corrected reading is at most 2048 (R151). -/
def keptAfter (kept bit : Nat) (raw : BitVec 12) : Nat :=
  if raw.toNat + (kept + 2 ^ bit) ≤ Config.midScale + 16 then kept + 2 ^ bit else kept

/-- The calibration completes: trim, report, CALDONE, and the queue is served (R152). -/
def State.completeCalibration (s : State) (trim : Nat) : State :=
  ({ s with converter := { s.converter with
      trim := trim, report := if trim = 0 ∨ trim = 31 then .atLimit else .done } }.setFlag .caldone).serveQueue

/-- One calibration conversion ends: the next bit begins, or the calibration completes (R151, R152). -/
def State.completeTrial (s : State) : State :=
  match s.converter.state with
  | .calibrating kept bit raw =>
    match bit with
    | 0 => s.completeCalibration (keptAfter kept 0 raw)
    | b + 1 => s.startTrial (keptAfter kept (b + 1) raw) b
  | .idle | .converting _ | .calPending _ => s

/-! ### Requests -/

/-- Where the queue has room a request goes to its tail; an IDLE converter takes the head in the same step (R142). -/
def State.placeRequest (s : State) (slot : Fin 8) (origin : Origin) : State :=
  let r : Request := ⟨slot, s.sampler.slots[slot].channel, origin, s.now⟩
  let t := { s with sampler := { s.sampler with queue := s.sampler.queue ++ [r] } }
  if s.converter.state = .idle then t.serveQueue else t

/-- The queue holds four requests (R141, R143). -/
def State.queueFull (s : State) : Bool := Config.queueCapacity ≤ s.sampler.queue.length

/-- A slot's record. -/
def State.setSlotRecord (s : State) (slot : Fin 8) (r : Slot) : State :=
  { s with sampler := { s.sampler with slots := s.sampler.slots.set slot r } }

/-- An edge request is dropped: its slot's drop counter increases and DROP is set (R143). -/
def State.dropRequest (s : State) (slot : Fin 8) : State :=
  (s.setSlotRecord slot { s.sampler.slots[slot] with drops := bump8 s.sampler.slots[slot].drops }).setFlag .drop

/-- A sample request from an edge tag arrives (R140, R143). -/
def State.takeTag (s : State) (t : SampleTag) : State :=
  if s.queueFull then s.dropRequest t.slot else s.placeRequest t.slot (.edge t.frame t.tick)

/-- The oldest sample request on its way is taken; without one nothing happens (log entry 8). -/
def State.samplerTakesTag (s : State) : State :=
  match s.transit.tags with
  | [] => s
  | t :: rest => { s with transit := { s.transit with tags := rest } }.takeTag t

/-- The sample requests of one engine step that are still on their way are taken, the oldest first; those of other
steps stay on their way. -/
def State.takeTagsOf (s : State) (step : Nat) : State :=
  (s.transit.tags.filter fun t => t.step == step).foldl State.takeTag
    { s with transit := { s.transit with tags := s.transit.tags.filter fun t => t.step != step } }

/-- SAMPLE_NOW at its owner: CONFIG, FULL (R141). -/
def State.sampleNow (s : State) : State × ResultCode :=
  match named 8 (lowerByte s.port.p0) with
  | none => (s, .config)
  | some slot => if s.queueFull then (s, .full) else (s.placeRequest slot .software, .ok)

/-! ### Slots -/

/-- SET_SLOT at its owner; the drop counter is kept (R137, R138). -/
def State.setSlot (s : State) : State × ResultCode :=
  match slotSettings s.port.p0 s.port.p1 s.port.p2 s.port.p3 with
  | none => (s, .config)
  | some (slot, channel, window, tripOnLimit) =>
    (s.setSlotRecord slot ⟨channel, window, tripOnLimit, s.sampler.slots[slot].drops⟩, .ok)

/-- READ_SLOT at its owner, in the layout that SET_SLOT reads (R139). -/
def State.readSlot (s : State) : State × ResultCode :=
  match named 8 (lowerByte s.port.p0) with
  | none => (s, .config)
  | some slot =>
    let r := s.sampler.slots[slot]
    let limits := match r.window with
      | some w => (w.low, w.high)
      | none => (0, 0)
    (s.setParams (wordOfBytes slot.val r.channel.val) (wordOfBytes (bitOf r.window.isSome) (bitOf r.tripOnLimit))
      (BitVec.ofNat 16 limits.1) (BitVec.ofNat 16 limits.2), .ok)

/-! ### Converter actions -/

/-- SET_CONVERTER at its owner: CONFIG first, then BUSY unless IDLE (R149). -/
def State.setConverter (s : State) : State × ResultCode :=
  if !converterDividers.contains s.port.p0.toNat then (s, .config)
  else if s.converter.state ≠ .idle then (s, .busy)
  else ({ s with converter := { s.converter with divider := s.port.p0.toNat } }, .ok)

/-- CALIBRATE at its owner (R150). -/
def State.calibrate (s : State) : State × ResultCode :=
  match s.converter.state with
  | .idle => (s.beginCalibration, .ok)
  | .converting c => (s.setConverterState (.calPending c), .ok)
  | .calPending _ | .calibrating _ _ _ => (s, .busy)

/-- CANCEL_CAL at its owner (R154). In CAL_PENDING it is over in its step and no flag reports it later: R154 and R159 give
it none, where R196 lists it among the actions whose completion a flag reports (DEDUCED, log entry 24). -/
def State.cancelCal (s : State) : State × ResultCode :=
  match s.converter.state with
  | .calibrating _ _ _ => ((s.setCalReport .cancelled).serveQueue, .ok)
  | .calPending c => ((s.setCalReport .cancelled).setConverterState (.converting c), .ok)
  | .idle | .converting _ => (s, .state)

/-- The sampling path is emptied: conversion or calibration abandoned with the report CANCELLED for a calibration in
flight or pending, the queue flushed, the converter IDLE; the trim is kept (R148, R155). -/
def State.flushSampling (s : State) : State :=
  let report := match s.converter.state with
    | .calPending _ | .calibrating _ _ _ => .cancelled
    | .idle | .converting _ => s.converter.report
  { s with converter := { s.converter with state := .idle, report := report },
           sampler := { s.sampler with queue := [] } }

/-- The oldest trip notice on its way to the sampling path is taken. Before the notice of a trip that an INTERLOCK
source caused come the sample requests of the engine step in which the source arose; those of any other step may still
arrive after it (R104, R155, R179). -/
def State.samplingTakesNotice (s : State) : State :=
  match s.transit.converterNotices with
  | [] => s
  | cause :: rest =>
    let t := match cause with
      | none => s
      | some step => s.takeTagsOf step
    { t with transit := { t.transit with converterNotices := rest } }.flushSampling

/-! ### The commands -/

def execSetSlot (s : State) : Host.Outcome State Fault Refusal := s.action 0x30#7 State.setSlot

def execReadSlot (s : State) : Host.Outcome State Fault Refusal := s.action 0x3D#7 State.readSlot

def execSampleNow (s : State) : Host.Outcome State Fault Refusal := s.action 0x31#7 State.sampleNow

/-- SAMPLE_REQUEST (R140). -/
def execSampleRequest (s : State) : Host.Outcome State Fault Refusal := s.event s.samplerTakesTag

/-- CONVERSION_COMPLETION: nothing completes unless a conversion is in flight (R147, log entry 8). -/
def execConversionCompletion (s : State) : Host.Outcome State Fault Refusal := s.event s.completeConversion

def execSetConverter (s : State) : Host.Outcome State Fault Refusal := s.action 0x32#7 State.setConverter

def execCalibrate (s : State) : Host.Outcome State Fault Refusal := s.action 0x33#7 State.calibrate

/-- CALIBRATION_CONVERSION: nothing ends unless a calibration is in flight (R151, log entry 8). -/
def execCalibrationConversion (s : State) : Host.Outcome State Fault Refusal := s.event s.completeTrial

def execCancelCal (s : State) : Host.Outcome State Fault Refusal := s.action 0x34#7 State.cancelCal

/-- TRIP_NOTICE_CONVERTER (R155, R179, log entry 8). -/
def execTripNoticeConverter (s : State) : Host.Outcome State Fault Refusal := s.event s.samplingTakesNotice

end Sys2Proof.Machine
end

