-- ==== Sys2Proof/Machine/System.lean ====
section
/-! DEFINITION. Power-on, RST#, CLEAR_COUNTERS and SOFT_RESET (R202, R203, and the reset sections of every chapter). -/

namespace Sys2Proof.Machine

/-- CS# is low. -/
def PortPhase.csLow : PortPhase → Bool
  | .idle => false
  | .command | .reading _ | .recordDue | .writing _ | .ignoring => true

/-- Every block takes its power-on values and everything under way is abandoned (R15, R61, R86, R106, R134, R157,
R170, R188, R197, R198, R205). The pins RST# and CS#, the world outside and the queue of waiting commands are not the
part's. With CS# low nothing is decoded until it has risen and fallen again (R193). The tick clock starts with
prescaler 1 (R63). -/
def State.powerOnValues (s : State) : State :=
  { State.reset with
    timebase := { State.reset.timebase with nextTick := s.now + 1 },
    port := { State.reset.port with phase := if s.port.phase.csLow then .ignoring else .idle },
    rstLow := s.rstLow, environment := s.environment, pending := s.pending }

/-- Power is applied (R15 and the power-on values of every chapter). -/
def execPowerOn (s : State) : Host.Outcome State Fault Refusal := .next s.powerOnValues

/-- RST# goes low: every block takes its power-on values and holds them, the line pins are released, and the
transaction in progress ends (R86, R134, R193). -/
def execRstAssert (s : State) : Host.Outcome State Fault Refusal := .next { s.powerOnValues with rstLow := true }

/-- RST# returns high: the tick clock starts, its first tick one CLK period later (R63). RST# cannot rise when it is
high (log entry 8). -/
def execRstRelease (s : State) : Host.Outcome State Fault Refusal :=
  .next (if s.rstLow then
      { s with rstLow := false, timebase := { s.timebase with nextTick := s.now + 1 } }
    else s)

/-- All 24 counters are 0 (R202). -/
def State.zeroCounters (s : State) : State :=
  { s with
    timebase := { s.timebase with skipCount := 0, missCount := 0 },
    groups := mapTable s.groups fun r => { r with deferred := 0, abandoned := 0 },
    sampler := { s.sampler with slots := mapTable s.sampler.slots fun r => { r with drops := 0 } },
    ring := { s.ring with lost := 0 },
    trip := { s.trip with overflow := 0 } }

/-- CLEAR_COUNTERS, taken in every state (R202). -/
def execClearCounters (s : State) : Host.Outcome State Fault Refusal :=
  s.action 0x39#7 fun t => (t.zeroCounters, .ok)

/-! ### SOFT_RESET -/

/-- The plan store and validator at soft reset (R16, R33, R57, R61). -/
def State.resetPlanStore (s : State) : State :=
  let t := if s.plan.staging = .copying then s.setStaging .abandoned else s.cancelCommit .softReset
  (t.setStagingState .editing).setLateWithdraw false

/-- The timebase at soft reset (R87): HALTED stays HALTED with its frozen counter and frame number, every other state
becomes STOPPED with both at 0. -/
def Timebase.softReset (t : Timebase) : Timebase :=
  let u := { t with dividerCount := 0, timeoutCount := 0, arrivalLatch := false, syncOut := false }
  if t.state = .halted then u else { u with state := .stopped, frameNumber := 0#16, tick := 0 }

/-- The line block at soft reset (R135). Claims under way reach lines that are no longer SCHEDULED and are gone (R111,
log entry 5). -/
def State.resetLines (s : State) : State :=
  { s with
    lines := mapTable s.lines (Line.softReset s.tripIndicator),
    groups := mapTable s.groups InterlockGroup.softReset,
    transit := { s.transit with claims := [], syncExpiry := false, headOwed := 0#6 } }

/-- Every block takes its soft-reset values; all flags are cleared and the enables kept (R203). A source taken before it in
ARMED leaves record 1 with the frame and tick of that step and its TRIP flag cleared here; taken after it, record 1 has
none and the flag stands, though R189 calls the two orders alike (DEDUCED: R178, R87 and R187 are followed, log
entry 23). -/
def State.softReset (s : State) : State :=
  let t := s.resetPlanStore.idleEngine.resetLines.flushSampling.zeroCounters
  { t with
    timebase := t.timebase.softReset,
    ring := { t.ring with records := [], view := none },
    interrupts := { t.interrupts with flags := 0#13 } }

/-- SOFT_RESET, taken in every state (R203). -/
def execSoftReset (s : State) : Host.Outcome State Fault Refusal := s.action 0x3A#7 fun t => (t.softReset, .ok)

end Sys2Proof.Machine
end

