-- ==== Sys2Proof/Machine/TimebaseControl.lean ====
section
/-! DEFINITION. The timebase's actions and events (Chapter 4). -/

namespace Sys2Proof.Machine

/-- The prescaler-change notice at the line block: every fall age becomes 0 (R130). -/
def State.prescalerNotice (s : State) : State := { s with lines := mapTable s.lines fun l => { l with age := 0 } }

/-- The four settings take their values; a changed prescaler restarts the tick clock and sends the prescaler-change
notice (R64). -/
def State.applyTimebase (s : State) (settings : Nat × SyncMode × Nat × Nat) : State :=
  let t := { s with timebase := { s.timebase with
    prescaler := settings.1, mode := settings.2.1, timeout := settings.2.2.1, divider := settings.2.2.2 } }
  if settings.1 = s.timebase.prescaler then t
  else { t with timebase := { t.timebase with nextTick := s.now + settings.1 } }.prescalerNotice

/-- SET_TIMEBASE at its owner: RUNNING unless STOPPED, then CONFIG (R64). -/
def State.setTimebase (s : State) : State × ResultCode :=
  if !s.timebaseStopped then (s, .running)
  else match timebaseSettings s.port.p0 s.port.p1 s.port.p2 s.port.p3 with
    | none => (s, .config)
    | some settings => (s.applyTimebase settings, .ok)

/-- START at its owner: TRIPPED while tripped, STATE unless STOPPED, TRIPPED while the line block has not taken the
clear notice; taken, the counters of the frame go to 0 and a latched arrival is discarded, and then frame 0 begins in
FREE mode, or the first arrival is awaited in FOLLOW mode (R68, R69). -/
def State.startTimebase (s : State) : State × ResultCode :=
  if s.tripped then (s, .tripped)
  else if !s.timebaseStopped then (s, .state)
  else if s.tripIndicator then (s, .tripped)
  else
    let t := { s with timebase := { s.timebase with
      frameNumber := 0#16, tick := 0, dividerCount := 0, timeoutCount := 0, arrivalLatch := false } }
    match s.timebase.mode with
    | .free => (t.beginFrameZero, .ok)
    | .follow => ({ t with timebase := { t.timebase with state := .awaitSync } }, .ok)

/-- STOP at its owner (R70, R72). -/
def State.stopTimebase (s : State) : State × ResultCode :=
  match s.timebase.state with
  | .running => ({ s with timebase := { s.timebase with state := .stopping } }, .ok)
  | .awaitSync | .holding => (s.becomeStopped, .ok)
  | .stopping => (s, .ok)
  | .stopped | .halted => (s, .state)

/-! ### The commands -/

def execSetTimebase (s : State) : Host.Outcome State Fault Refusal := s.action 0x29#7 State.setTimebase

def execStart (s : State) : Host.Outcome State Fault Refusal := s.action 0x2A#7 State.startTimebase

def execStop (s : State) : Host.Outcome State Fault Refusal := s.action 0x2B#7 State.stopTimebase

/-- TICK: while RST# is low the tick clock makes no ticks (R63, R86). -/
def execTick (s : State) : Host.Outcome State Fault Refusal := s.event s.oneTick

/-- SYNC_IN_ARRIVAL: a rising edge sets the arrival latch in every state (R78). -/
def execSyncInArrival (s : State) : Host.Outcome State Fault Refusal :=
  s.event { s with timebase := { s.timebase with arrivalLatch := true } }

/-- SYNC_TIMEOUT: the expiry of the tick at which the counter reached W is taken (R82); without one nothing happens
(log entry 8). -/
def execSyncTimeout (s : State) : Host.Outcome State Fault Refusal := s.event s.settleSync

/-- The clear notice on its way to the timebase is taken: HALTED becomes STOPPED with the sync timeout counter at 0; in
any other state it changes nothing (R85). -/
def State.timebaseTakesClear (s : State) : State :=
  if s.transit.clearTimebase then
    let t := { s with transit := { s.transit with clearTimebase := false } }
    if s.timebase.state = .halted then
      { t with timebase := { t.timebase with state := .stopped, timeoutCount := 0 } }
    else t
  else s

/-- CLEAR_NOTICE_TIMEBASE (R85, R184). -/
def execClearNoticeTimebase (s : State) : Host.Outcome State Fault Refusal := s.event s.timebaseTakesClear

end Sys2Proof.Machine
end

