-- ==== Sys2Proof/Machine/Trip.lean ====
section
/-! DEFINITION. The trip controller (Chapter 9): sources, the trip and its notices, the fault inputs, and the
controller's actions. -/

namespace Sys2Proof.Machine

/-! ### Taking a source -/

/-- The frame number and tick of a trip record, present while the timebase is RUNNING, STOPPING or HOLDING (R177). -/
def Timebase.stamp (t : Timebase) : Option (Word × Nat) :=
  match t.state with
  | .running | .stopping | .holding => some (t.frameNumber, t.tick)
  | .stopped | .awaitSync | .halted => none

/-- The trip notice at the timebase and the engine: HALTED from any state, the counters frozen, SYNC_OUT low, the
engine IDLE (R84, R104). -/
def State.haltTimebase (s : State) : State :=
  { s with timebase := { s.timebase with state := .halted, syncOut := false },
           transit := { s.transit with syncExpiry := false } }.idleEngine

/-- The engine step whose sample requests come before the trip notice of a source: the step in which an INTERLOCK source
arose (R104); for any other source there is none. -/
def SentSource.cause (sent : SentSource) : Option Nat :=
  match sent.source with
  | .interlock _ => some sent.step
  | .fault0 | .fault1 | .limit _ | .syncLost | .software => none

/-- The trip notice is sent to the plan store and to the sampling path, which take it as events of their own (R179); a
clear notice not yet taken is withdrawn (R184). -/
def State.sendTripNotices (s : State) (sent : SentSource) : State :=
  { s with transit := { s.transit with
      planNotices := s.transit.planNotices + 1,
      converterNotices := s.transit.converterNotices ++ [sent.cause],
      clearTimebase := false, clearLines := false } }

/-- A source taken while ARMED trips the device: record 1, TRIPPED, the TRIP flag, and the trip notice, which the
timebase and the line block take in the same step (R178, R187). -/
def State.tripDevice (s : State) (sent : SentSource) : State :=
  { s with trip := { s.trip with
      state := .tripped, records := [⟨sent.source, s.timebase.stamp⟩] } }.haltTimebase.tripLines
    |>.sendTripNotices sent |>.setFlag .trip

/-- A source taken while TRIPPED: a secondary record, or one more on the overflow counter when the list holds four
(R180). -/
def State.recordSecondary (s : State) (source : TripSource) : State :=
  if s.trip.records.length < Config.tripListCapacity then
    { s with trip := { s.trip with records := s.trip.records ++ [⟨source, s.timebase.stamp⟩] } }
  else { s with trip := { s.trip with overflow := bump8 s.trip.overflow } }

/-- The controller takes a source (R178, R180). -/
def State.takeSource (s : State) (sent : SentSource) : State :=
  match s.trip.state with
  | .armed => s.tripDevice sent
  | .tripped => s.recordSecondary sent.source

/-- The controller takes a source that was sent and not yet taken, of several alike the oldest; sources under way may be
taken in any order (R172, R181). One that no block has sent is not there to take (log entry 8). -/
def State.controllerTakes (s : State) (source : TripSource) : State :=
  match s.transit.sources.find? fun sent => sent.source == source with
  | none => s
  | some sent => { s with transit := { s.transit with sources := s.transit.sources.erase sent } }.takeSource sent

/-! ### Fault inputs -/

/-- A fault input's record. -/
def State.setFaultInput (s : State) (i : Fin 2) (f : FaultInput) : State :=
  { s with trip := { s.trip with faults := s.trip.faults.set i f } }

/-- The source of a fault input (R172). -/
def faultSource (i : Fin 2) : TripSource := if i = 0 then .fault0 else .fault1

/-- A pin level is the asserted one (R173). -/
def FaultPolarity.asserts (p : FaultPolarity) (pinHigh : Bool) : Bool :=
  match p with
  | .assertHigh => pinHigh
  | .assertLow => !pinHigh

/-- The filter of an input expires: qualified, and the input's source is sent in the same step (R174). -/
def State.qualify (s : State) (i : Fin 2) : State :=
  (s.setFaultInput i { s.trip.faults[i] with qualified := true }).sendSource (faultSource i)

/-- A sample of an input judged by its filter (R173, R174): a disabled input's sample has no effect. -/
def State.judgeSample (s : State) (i : Fin 2) (asserted : Bool) : State :=
  let f := s.trip.faults[i]
  if !f.enabled then s
  else if !asserted then s.setFaultInput i { f with count := 0, qualified := false }
  else if f.qualified then s
  else if f.count < f.qualCount then s.setFaultInput i { f with count := f.count + 1 }
  else s.qualify i

/-- A sample is taken at this instant. -/
def State.stampSample (s : State) (i : Fin 2) : State :=
  s.setFaultInput i { s.trip.faults[i] with lastSample := some s.now }

/-- The effect of SET_FAULT on one input (R175, R176): unchanged settings keep the filter; a disabled or changed input
starts with the count 0 and not qualified. -/
def FaultInput.configure (f : FaultInput) (enabled : Bool) (polarity : FaultPolarity) (q : Nat) : FaultInput :=
  if f.enabled = enabled ∧ f.polarity = polarity ∧ f.qualCount = q then f
  else { f with enabled := enabled, polarity := polarity, qualCount := q, count := 0, qualified := false }

/-- SET_FAULT at its owner (R175, R176). -/
def State.setFault (s : State) : State × ResultCode :=
  match faultSetting s.port.p0, faultSetting s.port.p1, yesNoOfCode (lowerByte s.port.p3) with
  | some (e0, pol0), some (e1, pol1), some syncLost =>
    ({ s with trip := { s.trip with
        faults := #v[s.trip.faults[0].configure e0 pol0 (lowerByte s.port.p2),
                     s.trip.faults[1].configure e1 pol1 (upperByte s.port.p2)],
        syncLostEnable := syncLost } }, .ok)
  | _, _, _ => (s, .config)

/-! ### Actions -/

/-- TRIP at its owner: the SOFTWARE source is taken in the same step (R182). -/
def State.trips (s : State) : State × ResultCode := (s.takeSource ⟨.software, s.transit.steps⟩, .ok)

/-- A held condition stands: an enabled input is qualified (R173, R183). -/
def State.faultStands (s : State) : Bool := s.trip.faults.toList.any fun f => f.enabled && f.qualified

/-- CLEAR_TRIP at its owner: STATE while ARMED, FAULT_ACTIVE while a condition stands; taken, ARMED with an empty list,
and the clear notice sent to the timebase and the line block (R183, R184). Trip notices not yet taken stay on their way
(DESIGN CHOICE, log entry 17). A condition stands from the step of its qualification, so CLEAR_TRIP is refused by check 2
of R183 though the source of that qualification has not been taken, where R185's table would take it (DEDUCED, log
entry 22). -/
def State.clearTrip (s : State) : State × ResultCode :=
  if !s.tripped then (s, .state)
  else if s.faultStands then (s, .faultActive)
  else ({ s with trip := { s.trip with state := .armed, records := [] },
                 transit := { s.transit with clearTimebase := true, clearLines := true } }, .ok)

/-- READ_TRIP_RECORD at its owner (R186, R201). -/
def State.readTripRecord (s : State) : State × ResultCode :=
  match s.trip.records[s.port.p0.toNat]? with
  | none => (s, .notFound)
  | some r => (s.setParams (r.word0 s.trip.records.length) r.word1 r.word2 0#16, .ok)

/-! ### The commands -/

/-- FAULT_SAMPLE of an input at a pin level: the whole of R174, the expiry included. -/
def execFaultSample (input : Fin 2) (pinHigh : Bool) (s : State) : Host.Outcome State Fault Refusal :=
  s.event ((s.judgeSample input (s.trip.faults[input].polarity.asserts pinHigh)).stampSample input)

/-- FILTER_EXPIRY of an input: the asserted sample that finds the filter count equal to Q on an enabled input not yet
qualified (R174); on any other input no filter expires (log entry 8). -/
def execFilterExpiry (input : Fin 2) (s : State) : Host.Outcome State Fault Refusal :=
  let f := s.trip.faults[input]
  s.event (if f.enabled && !f.qualified && f.qualCount ≤ f.count then (s.qualify input).stampSample input else s)

def execSetFault (s : State) : Host.Outcome State Fault Refusal := s.action 0x35#7 State.setFault

/-- TRIP_SOURCE (R178, R180, R181). -/
def execTripSource (source : TripSource) (s : State) : Host.Outcome State Fault Refusal :=
  s.event (s.controllerTakes source)

def execTrip (s : State) : Host.Outcome State Fault Refusal := s.action 0x36#7 State.trips

def execClearTrip (s : State) : Host.Outcome State Fault Refusal := s.action 0x37#7 State.clearTrip

def execReadTripRecord (s : State) : Host.Outcome State Fault Refusal := s.action 0x38#7 State.readTripRecord

end Sys2Proof.Machine
end

