-- ==== Sys2Proof/Machine/Dispatch.lean ====
section
/-! DEFINITION. The dispatch: one arm for each command, each one direct call of its meaning. -/

namespace Sys2Proof.Machine

def exec (i : Instr) (s : State) : Host.Outcome State Fault Refusal :=
  match i with
  | .powerOn => Sys2Proof.Machine.execPowerOn s
  | .rstAssert => Sys2Proof.Machine.execRstAssert s
  | .rstRelease => Sys2Proof.Machine.execRstRelease s
  | .csFall => Sys2Proof.Machine.execCsFall s
  | .commandByte byte => Sys2Proof.Machine.execCommandByte byte s
  | .csRise => Sys2Proof.Machine.execCsRise s
  | .registerWrite word => Sys2Proof.Machine.execRegisterWrite word s
  | .recordRead => Sys2Proof.Machine.execRecordRead s
  | .iflagWrite word => Sys2Proof.Machine.execIflagWrite word s
  | .ienableWrite word => Sys2Proof.Machine.execIenableWrite word s
  | .insertEdge => Sys2Proof.Machine.execInsertEdge s
  | .removeEdge => Sys2Proof.Machine.execRemoveEdge s
  | .clearStage => Sys2Proof.Machine.execClearStage s
  | .setFrameLength => Sys2Proof.Machine.execSetFrameLength s
  | .copyActive => Sys2Proof.Machine.execCopyActive s
  | .copyCompletion => Sys2Proof.Machine.execCopyCompletion s
  | .readStageEntry => Sys2Proof.Machine.execReadStageEntry s
  | .readActiveEntry => Sys2Proof.Machine.execReadActiveEntry s
  | .commit => Sys2Proof.Machine.execCommit s
  | .validationCompletion => Sys2Proof.Machine.execValidationCompletion s
  | .withdraw => Sys2Proof.Machine.execWithdraw s
  | .tripNoticePlanStore => Sys2Proof.Machine.execTripNoticePlanStore s
  | .setTimebase => Sys2Proof.Machine.execSetTimebase s
  | .start => Sys2Proof.Machine.execStart s
  | .stop => Sys2Proof.Machine.execStop s
  | .tick => Sys2Proof.Machine.execTick s
  | .syncInArrival => Sys2Proof.Machine.execSyncInArrival s
  | .syncTimeout => Sys2Proof.Machine.execSyncTimeout s
  | .engineClaims => Sys2Proof.Machine.execEngineClaims s
  | .deferralExpiry group => Sys2Proof.Machine.execDeferralExpiry group s
  | .setLineConfig => Sys2Proof.Machine.execSetLineConfig s
  | .setLineMode => Sys2Proof.Machine.execSetLineMode s
  | .setGroup => Sys2Proof.Machine.execSetGroup s
  | .readLine => Sys2Proof.Machine.execReadLine s
  | .readGroup => Sys2Proof.Machine.execReadGroup s
  | .clearNoticeTimebase => Sys2Proof.Machine.execClearNoticeTimebase s
  | .clearNoticeLineBlock => Sys2Proof.Machine.execClearNoticeLineBlock s
  | .setSlot => Sys2Proof.Machine.execSetSlot s
  | .readSlot => Sys2Proof.Machine.execReadSlot s
  | .sampleNow => Sys2Proof.Machine.execSampleNow s
  | .sampleRequest => Sys2Proof.Machine.execSampleRequest s
  | .conversionCompletion => Sys2Proof.Machine.execConversionCompletion s
  | .setConverter => Sys2Proof.Machine.execSetConverter s
  | .calibrate => Sys2Proof.Machine.execCalibrate s
  | .calibrationConversion => Sys2Proof.Machine.execCalibrationConversion s
  | .cancelCal => Sys2Proof.Machine.execCancelCal s
  | .tripNoticeConverter => Sys2Proof.Machine.execTripNoticeConverter s
  | .setRing => Sys2Proof.Machine.execSetRing s
  | .faultSample input pinHigh => Sys2Proof.Machine.execFaultSample input pinHigh s
  | .filterExpiry input => Sys2Proof.Machine.execFilterExpiry input s
  | .setFault => Sys2Proof.Machine.execSetFault s
  | .tripSource source => Sys2Proof.Machine.execTripSource source s
  | .trip => Sys2Proof.Machine.execTrip s
  | .clearTrip => Sys2Proof.Machine.execClearTrip s
  | .readTripRecord => Sys2Proof.Machine.execReadTripRecord s
  | .clearCounters => Sys2Proof.Machine.execClearCounters s
  | .softReset => Sys2Proof.Machine.execSoftReset s

end Sys2Proof.Machine
end

