-- ==== Sys2Proof/Safety.lean ====
section
/-! DEFINITION. The terms claims are written in: when a command can have its effect, what it leaves on the host port,
the laws a reachable state keeps, and when an event comes at the instant the manual gives it. -/

namespace Sys2Proof.Machine

/-! ### Words on the host port -/

/-- A write word is completing at address `a` (R192). -/
def State.atWord (s : State) (a : Address) : Prop := s.rstLow = false ∧ s.port.phase = .writing a

/-- `t` after the write word at `a`: the current address has moved on, MISO has been low (R190, R192). -/
def State.afterWord (t : State) (a : Address) : State :=
  { t with port := { t.port with phase := .writing (a + 1#7), readWord := 0#16 } }

/-- `t` after the action at `a`: besides, ACT_RESULT holds the outcome and the action's address (R197). -/
def State.acted (t : State) (a : Address) (code : ResultCode) : State :=
  { t with port := { t.port with
      phase := .writing (a + 1#7), readWord := 0#16, code := code, actAddress := a } }

/-- `t` with P0 to P3 written by a read-back (R198). -/
def State.withParams (t : State) (p0 p1 p2 p3 : Word) : State :=
  { t with port := { t.port with p0 := p0, p1 := p1, p2 := p2, p3 := p3 } }

/-- `t` with these flags added to IFLAG (R204). -/
def State.withFlags (t : State) (flags : BitVec 13) : State :=
  { t with interrupts := { t.interrupts with flags := t.interrupts.flags ||| flags } }

/-! ### Laws of the state -/

/-- The law of a plan bank: at most 64 entries, strictly ascending by offset and then line, every offset below the
frame length, a tag on every MARK, a frame length of 16 to 65535 (R5, R6). -/
structure Plan.Lawful (p : Plan) : Prop where
  count   : p.entries.length ≤ 64
  sorted  : p.entries.Pairwise fun e f => e.offset < f.offset ∨ (e.offset = f.offset ∧ e.line < f.line)
  inside  : ∀ e ∈ p.entries, e.offset < p.frameLength
  tagged  : ∀ e ∈ p.entries, e.action = .mark → e.tag ≠ none
  least   : 16 ≤ p.frameLength
  most    : p.frameLength ≤ 65535

/-- Both banks are lawful (R37). -/
def State.BanksLawful (s : State) : Prop := s.plan.bankA.Lawful ∧ s.plan.bankB.Lawful

/-- The active bank has its table and mark, and so has the staging bank while a swap waits (R8, R53). -/
def State.ActiveMarked (s : State) : Prop :=
  s.plan.active.table.isSome ∧ (s.plan.staging = .pending → s.plan.stagingPlan.table.isSome)

/-- The active bank is A exactly when the generation is even (R10). -/
def State.SelectorAgrees (s : State) : Prop := s.plan.selector = .a ↔ s.plan.generation.toNat % 2 = 0

/-- The validator runs exactly while the staging state is VALIDATING (R20, R40). -/
def State.ValidatorAgrees (s : State) : Prop := s.validator.running = true ↔ s.plan.staging = .validating

/-- A claim that the edge engine can hand on: a start fall is to INACTIVE or RELEASED (R97, R111). -/
def Claim.Sent : Claim → Prop
  | .startFall _ target => target ≠ .active
  | .fall _ | .rise _ | .startRise _ => True

/-- Every claim under way to the line block is one the edge engine can hand on. -/
def State.ClaimsSent (s : State) : Prop := ∀ step ∈ s.transit.claims, ∀ c ∈ step, c.Sent

/-- No two lines of one interlock group are both ACTIVE (R122), a member's rest level is INACTIVE and its safe level
not ACTIVE (R108), and no start fall under way asks for ACTIVE (R111). -/
structure State.GroupsSafe (s : State) : Prop where
  apart  : ∀ i j : Fin 16, i ≠ j → s.lines[i].group ≠ none → s.lines[i].group = s.lines[j].group →
    ¬(s.lines[i].level = .active ∧ s.lines[j].level = .active)
  levels : ∀ i : Fin 16, s.lines[i].group ≠ none → s.lines[i].restLevel = .inactive ∧ s.lines[i].safeLevel ≠ .active
  claims : s.ClaimsSent

/-- The rise of line `x` is clear, in the words of R122: every other member of its group, if it has one, is not ACTIVE and
has a fall age of at least the group's gap. -/
def State.RiseClear (s : State) (x : Fin 16) : Prop :=
  ∀ (g : Fin 6) (y : Fin 16), s.lines[x].group = some g → y ≠ x → s.lines[y].group = some g →
    s.lines[y].level ≠ .active ∧ s.groups[g].gap ≤ s.lines[y].age

/-- A group has no line or 2 to 4; its queue holds each of its members at most once, and none that is ACTIVE, with a wait
not above the limit; a TRIP group's queue is empty; gap and limit are at most 1023 (R117, R124, R126). -/
structure State.QueuesLawful (s : State) : Prop where
  sizes   : ∀ g : Fin 6, s.members g = [] ∨ (2 ≤ (s.members g).length ∧ (s.members g).length ≤ 4)
  members : ∀ g : Fin 6, ∀ w ∈ s.groups[g].queue, s.lines[w.line].group = some g
  down    : ∀ g : Fin 6, ∀ w ∈ s.groups[g].queue, s.lines[w.line].level ≠ .active
  once    : ∀ g : Fin 6, (s.groups[g].queue.map fun w => w.line).Nodup
  waits   : ∀ g : Fin 6, ∀ w ∈ s.groups[g].queue, w.wait ≤ s.groups[g].limit
  policy  : ∀ g : Fin 6, s.groups[g].policy = .trip → s.groups[g].queue = []
  ranges  : ∀ g : Fin 6, s.groups[g].gap ≤ 1023 ∧ s.groups[g].limit ≤ 1023

/-- The trip record list is empty exactly when the controller is ARMED and holds at most 4 records (R177). While
TRIPPED the timebase is HALTED and no clear notice is under way (R178, R184). While the line block's indicator is set,
which it is while TRIPPED, every line stands at its safe level outside the FORCED modes, every queue is empty, and the
timebase is HALTED or STOPPED (R132, R178). -/
structure State.TripLaw (s : State) : Prop where
  list      : s.trip.state = .armed ↔ s.trip.records = []
  count     : s.trip.records.length ≤ 4
  halted    : s.trip.state = .tripped → s.timebase.state = .halted
  withdrawn : s.trip.state = .tripped → s.transit.clearTimebase = false ∧ s.transit.clearLines = false
  indicator : s.trip.state = .tripped → s.tripIndicator = true
  still     : s.tripIndicator = true → s.timebase.state = .halted ∨ s.timebase.state = .stopped
  levels    : s.tripIndicator = true → ∀ i : Fin 16, s.lines[i].level = s.lines[i].safeLevel
  modes     : s.tripIndicator = true → ∀ i : Fin 16, s.lines[i].mode = .rest ∨ s.lines[i].mode = .scheduled
  queues    : s.tripIndicator = true → ∀ g : Fin 6, s.groups[g].queue = []

/-- While a frame is in progress the frame tick counter is below the frame length of the active plan (R65); while the
first arrival is awaited it is 0 (R67). -/
structure State.TickInFrame (s : State) : Prop where
  inside : s.timebase.state = .running ∨ s.timebase.state = .holding ∨ s.timebase.state = .stopping →
    s.timebase.tick < s.plan.active.frameLength
  awaits : s.timebase.state = .awaitSync → s.timebase.tick = 0

/-- The frame context of the edge engine (R88 to R90, R95): it is WALKING exactly in RUNNING, HOLDING and STOPPING; then it
reads the active bank, its frame number is the timebase's and its parity that number's, and the cursor splits the list
at the frame tick counter. -/
structure State.EngineInFrame (s : State) : Prop where
  walks   : s.engine.state = .walking ↔
    s.timebase.state = .running ∨ s.timebase.state = .holding ∨ s.timebase.state = .stopping
  governs : s.engine.state = .walking → s.engine.governing = s.plan.selector
  number  : s.engine.state = .walking → s.engine.frameNumber = s.timebase.frameNumber
  parity  : s.engine.state = .walking →
    s.engine.parity = if s.engine.frameNumber.toNat % 2 = 0 then .even else .odd
  passed  : s.engine.state = .walking →
    ∀ e ∈ (s.plan.bank s.engine.governing).entries.take s.engine.cursor, e.offset ≤ s.timebase.tick
  ahead   : s.engine.state = .walking →
    ∀ e ∈ (s.plan.bank s.engine.governing).entries.drop s.engine.cursor, s.timebase.tick < e.offset

/-- The condition of R45 at the rise of an occurrence behind a history: every other member of its line's group is not
ACTIVE and has no most recent fall, or one at least the group's gap away. -/
def GroupTable.RiseApart (t : GroupTable) (history : List Occurrence) (o : Occurrence) : Prop :=
  ∀ (g : Fin 6) (y : Fin 16), t.groupOf o.line = some g → y ≠ o.line → t.groupOf y = some g →
    activeAfter history y = false ∧
      ∀ f, lastFallOf history y = some f → t.gapOf g ≤ o.time - f.time

/-- The calibration run state is one the search can reach (R151). -/
def ConverterState.Reached : ConverterState → Prop
  | .calibrating kept bit _ => kept + 2 ^ (bit + 1) ≤ 32
  | .idle | .converting _ | .calPending _ => True

/-- The queue holds at most 4 requests and none while the converter is IDLE; the trim is 0 to 31 (R142, R145, R148). -/
structure State.SamplingLaw (s : State) : Prop where
  count   : s.sampler.queue.length ≤ 4
  served  : s.converter.state = .idle → s.sampler.queue = []
  trim    : s.converter.trim ≤ 31
  search  : s.converter.state.Reached

/-- The ring holds at most 16 records, the watermark is 1 to 16 (R161, R169), the frame number and tick of a record are
present exactly for EDGE by its form, and its value is 0 to 4095 (R160). -/
structure State.RingLaw (s : State) : Prop where
  count     : s.ring.records.length ≤ 16
  least     : 1 ≤ s.ring.watermark
  most      : s.ring.watermark ≤ 16
  values    : ∀ r ∈ s.ring.records, r.value ≤ 4095

/-- Fall ages are 0 to 1024 (R109) and the 8-bit and 16-bit counters are in their ranges (R202). -/
structure State.CountersLaw (s : State) : Prop where
  ages      : ∀ i : Fin 16, s.lines[i].age ≤ 1024
  skip      : s.timebase.skipCount ≤ 65535
  miss      : s.timebase.missCount ≤ 255
  deferred  : ∀ g : Fin 6, s.groups[g].deferred ≤ 255
  abandoned : ∀ g : Fin 6, s.groups[g].abandoned ≤ 255
  drops     : ∀ n : Fin 8, s.sampler.slots[n].drops ≤ 255
  lost      : s.ring.lost ≤ 255
  overflow  : s.trip.overflow ≤ 255

/-- The power-on value of every piece of state the manual names, as the reset section of each chapter gives it. -/
structure State.PowerOn (t : State) : Prop where
  /-- R15, R57. -/
  plan : t.plan.selector = .a ∧ t.plan.generation = 0#16 ∧ t.plan.staging = .editing ∧ t.plan.lateWithdraw = false
  /-- R15: frame length 1000, empty list, trivial table with the mark set. -/
  banks : ∀ p ∈ [t.plan.bankA, t.plan.bankB], p.frameLength = 1000 ∧ p.entries = [] ∧
    ∃ table, p.table = some table ∧ ∀ i : Fin 16, table.even[i] = .rest ∧ table.odd[i] = .rest
  /-- R40, R50. -/
  validator : t.validator.running = false ∧ t.validator.report = .none
  /-- R86. -/
  timebase : t.timebase.state = .stopped ∧ t.timebase.prescaler = 1 ∧ t.timebase.mode = .free ∧
    t.timebase.timeout = 0 ∧ t.timebase.divider = 1 ∧ t.timebase.frameNumber = 0#16 ∧ t.timebase.tick = 0 ∧
    t.timebase.dividerCount = 0 ∧ t.timebase.timeoutCount = 0 ∧ t.timebase.arrivalLatch = false ∧
    t.timebase.syncOut = false ∧ t.timebase.skipCount = 0 ∧ t.timebase.missCount = 0
  /-- R88, R106. -/
  engine : t.engine = ⟨.idle, .a, .even, 0#16, 0⟩
  /-- R134. -/
  lines : ∀ i : Fin 16, t.lines[i] = ⟨.activeHigh, .inactive, .released, .rest, .inactive, 1024, none⟩
  /-- R134. -/
  groups : ∀ g : Fin 6, t.groups[g] = ⟨0, .defer, 0, [], 0, 0⟩
  /-- R134. -/
  indicator : t.tripIndicator = false
  /-- R157. -/
  slots : ∀ n : Fin 8, t.sampler.slots[n] = ⟨n.castLE (by decide), none, false, 0⟩
  /-- R157. -/
  sampling : t.sampler.queue = [] ∧ t.converter.state = .idle ∧ t.converter.trim = 16 ∧ t.converter.divider = 4 ∧
    t.converter.report = .none
  /-- R170. -/
  ring : t.ring = ⟨[], none, 1, 0⟩
  /-- R188. -/
  trip : t.trip.state = .armed ∧ t.trip.records = [] ∧ t.trip.syncLostEnable = false ∧ t.trip.overflow = 0
  /-- R188. -/
  faults : ∀ i : Fin 2, t.trip.faults[i].enabled = false ∧ t.trip.faults[i].polarity = .assertHigh ∧
    t.trip.faults[i].qualCount = 0 ∧ t.trip.faults[i].count = 0 ∧ t.trip.faults[i].qualified = false
  /-- R205. -/
  interrupts : t.interrupts = ⟨0#13, 0#13⟩
  /-- R197, R198. -/
  port : t.port.code = .ok ∧ t.port.actAddress = 0#7 ∧ t.port.p0 = 0#16 ∧ t.port.p1 = 0#16 ∧ t.port.p2 = 0#16 ∧
    t.port.p3 = 0#16

/-- Nothing is under way that a tick would settle, and no rise waits: what a tick does is then its own effect alone. -/
structure State.Quiet (s : State) : Prop where
  claims : s.transit.claims = []
  expiry : s.transit.syncExpiry = false
  owed   : s.transit.headOwed = 0#6
  queues : ∀ g : Fin 6, s.groups[g].queue = []

/-- Nothing is under way that a tick would settle, and no wait has reached its limit; rises may wait. -/
structure State.Settled (s : State) : Prop where
  claims : s.transit.claims = []
  expiry : s.transit.syncExpiry = false
  owed   : s.transit.headOwed = 0#6
  waits  : ∀ g : Fin 6, ∀ w ∈ s.groups[g].queue, w.wait < s.groups[g].limit

/-- A tick here finds the timebase standing still: STOPPED and HALTED, AWAIT_SYNC without an arrival, HOLDING without an
arrival and with W = 0 (R74, R78, R79, R81). -/
def State.Stands (s : State) : Prop :=
  s.timebase.state = .stopped ∨ s.timebase.state = .halted ∨
    ((s.timebase.state = .awaitSync ∨ (s.timebase.state = .holding ∧ s.timebase.timeout = 0)) ∧
      (s.timebase.arrivalLatch = false ∨ s.timebase.mode = .free))

/-- What every tick does to a quiet state, whatever the timebase then does at it: the fall ages advance up to 1024
(R109), a SYNC_OUT pulse ends (R76), the arrival latch is cleared (R78), the next tick comes one prescaler later (R63),
and the model draws its next free order (log entry 4). -/
def State.tickPassed (s : State) : State :=
  { s with
    lines := tabulate fun i => { s.lines[i] with age := min (s.lines[i].age + 1) 1024 },
    timebase := { s.timebase with
      syncOut := false, arrivalLatch := false, nextTick := s.environment.clk + s.timebase.prescaler },
    environment := { s.environment with
      late := Config.headExaminedLate s.environment.ticks, ticks := s.environment.ticks + 1 } }

/-- `v` is the settled state `s` as a tick has begun, before the timebase moves: besides `tickPassed` every wait is one
longer, and the head of every waiting group has been examined at the new ages (R125) or, where the free order says so, is
owed its examination (R126, R128, log entry 4). -/
def State.TickBegun (s v : State) : Prop :=
  ∃ owed : BitVec 6,
    (∀ g : Fin 6, owed.getLsbD g.val = true ↔
      s.groups[g].queue ≠ [] ∧ s.environment.late.getLsbD g.val = true) ∧
    v = State.headsExamined { s.tickPassed with
      groups := tabulate fun g => { s.groups[g] with
        queue := s.groups[g].queue.map fun w => { w with wait := w.wait + 1 } },
      transit := { s.transit with headOwed := owed } } fun g => !owed.getLsbD g.val

/-- The end of a frame, as every boundary begins (R75): the counter at 0 and the frame number one greater, SYNC_OUT high
(R76), the divider counter on by one and restarted with FRAME at D (R77), and a PENDING swap taken with TAKEN (R54). -/
def State.frameEnded (s : State) : State :=
  { s with
    timebase := { s.timebase with
      tick := 0, frameNumber := s.timebase.frameNumber + 1#16, syncOut := true,
      dividerCount := if s.timebase.dividerCount + 1 < s.timebase.divider then s.timebase.dividerCount + 1 else 0 },
    plan := if s.plan.staging = .pending then
        { s.plan with
          selector := s.plan.selector.other, generation := s.plan.generation + 1#16, staging := .editing,
          lateWithdraw := true }
      else s.plan,
    interrupts := { s.interrupts with
      flags := s.interrupts.flags
        ||| (if s.timebase.dividerCount + 1 < s.timebase.divider then 0x0000#13 else 0x0001#13)
        ||| (if s.plan.staging = .pending then 0x0002#13 else 0x0000#13) } }

/-- The frame that follows a boundary out of RUNNING or HOLDING: RUNNING with the sync timeout counter at 0, and the
frame start of that frame (R75). -/
def State.nextFrame (s : State) : State :=
  { s with timebase := { s.timebase with state := .running, timeoutCount := 0 },
           transit := { s.transit with syncExpiry := false } }.frameStart s.timebase.frameNumber

/-- STOPPED with the stop notice (R72, R131): every SCHEDULED line at its rest level, a fall restarting its fall age,
every queue empty, the engine IDLE. -/
def State.stopNoticeTaken (s : State) : State :=
  { s with
    timebase := { s.timebase with state := .stopped },
    engine := { s.engine with state := .idle },
    lines := tabulate fun i =>
      if s.lines[i].mode = .scheduled then
        { s.lines[i] with
          level := s.lines[i].restLevel,
          age := if s.lines[i].level = .active ∧ s.lines[i].restLevel ≠ .active then 0 else s.lines[i].age }
      else s.lines[i],
    groups := tabulate fun g => { s.groups[g] with queue := [] },
    transit := { s.transit with syncExpiry := false } }

/-- A request that has room (R142, R146): an IDLE converter takes it at once with wait 0 and samples its slot's channel;
otherwise it joins the tail of the queue. The channel's next raw value is then free (log entry 3). -/
def State.requestPlaced (s : State) (slot : Fin 8) (origin : Origin) : State :=
  if s.converter.state = .idle then
    { s with
      converter := { s.converter with
        state := .converting ⟨⟨slot, s.sampler.slots[slot].channel, origin, s.environment.clk⟩,
          s.environment.analog[s.sampler.slots[slot].channel], 0⟩,
        since := s.environment.clk } }.afterSample s.sampler.slots[slot].channel
  else
    { s with sampler := { s.sampler with
      queue := s.sampler.queue ++ [⟨slot, s.sampler.slots[slot].channel, origin, s.environment.clk⟩] } }

/-- A source taken by the trip controller. ARMED (R178): record 1, stamped with the frame number and tick while RUNNING,
STOPPING or HOLDING (R177), TRIPPED, the TRIP flag, and the trip notice: at the timebase HALTED with SYNC_OUT low (R84) and
the engine IDLE (R104), at the line block every line at its safe level, FORCED modes ended, queues emptied and the
indicator set (R132), on its way to the plan store and to the sampling path (R179), a clear notice under way withdrawn
(R184). `cause` is the engine step whose sample requests come before the notice at the sampling path, for an INTERLOCK
source (R104). TRIPPED (R180): a secondary record while the list holds fewer than 4, and otherwise one more overflow. -/
def State.sourceTaken (s : State) (source : TripSource) (cause : Option Nat) : State :=
  if s.trip.state = .armed then
    State.withFlags { s with
      trip := { s.trip with
        state := .tripped,
        records := [⟨source,
          if s.timebase.state = .running ∨ s.timebase.state = .stopping ∨ s.timebase.state = .holding then
            some (s.timebase.frameNumber, s.timebase.tick)
          else none⟩] },
      timebase := { s.timebase with state := .halted, syncOut := false },
      engine := { s.engine with state := .idle },
      lines := tabulate fun i => { s.lines[i] with
        level := s.lines[i].safeLevel,
        mode := if s.lines[i].mode = .scheduled then .scheduled else .rest,
        age := if s.lines[i].level = .active ∧ s.lines[i].safeLevel ≠ .active then 0 else s.lines[i].age },
      groups := tabulate fun g => { s.groups[g] with queue := [] },
      tripIndicator := true,
      transit := { s.transit with
        syncExpiry := false, planNotices := s.transit.planNotices + 1,
        converterNotices := s.transit.converterNotices ++ [cause],
        clearTimebase := false, clearLines := false } } 0x0200#13
  else if s.trip.records.length < 4 then
    { s with trip := { s.trip with records := s.trip.records ++ [⟨source,
      if s.timebase.state = .running ∨ s.timebase.state = .stopping ∨ s.timebase.state = .holding then
        some (s.timebase.frameNumber, s.timebase.tick)
      else none⟩] } }
  else { s with trip := { s.trip with overflow := min (s.trip.overflow + 1) 255 } }

/-! ### Instants -/

/-- The command comes at an instant the manual allows it: a tick one prescaler after the last (R63), the copy and the
validation within their bounds (R29, R40), a conversion 32 converter periods after its start (R145, R151), a sample of
a fault input 8 CLK periods after the last (R173). The model does not hold commands to it (log entry 6). -/
def Timely (c : Instr) (s : State) : Bool :=
  match c with
  | .tick => s.now == s.timebase.nextTick
  | .copyCompletion => s.now ≤ s.plan.since + 16 + 4 * s.plan.active.entries.length
  | .validationCompletion =>
    s.now ≤ s.plan.since + 128 + 48 * (s.plan.stagingPlan.entries.length + s.plan.active.entries.length)
  | .conversionCompletion => s.now == s.converter.since + Config.conversionPeriods * s.converter.divider
  | .calibrationConversion => s.now == s.converter.since + Config.conversionPeriods * s.converter.divider
  | .faultSample i _ => s.trip.faults[i].lastSample.all fun last => s.now == last + Config.faultUnit
  | .filterExpiry i => s.trip.faults[i].lastSample.all fun last => s.now == last + Config.faultUnit
  | _ => true

end Sys2Proof.Machine
end

