-- ==== Sys2Proof/WellFormed.lean ====
section
/-! DEFINITION. The commands that the world outside or a block of the part can send at all. Operand ranges are in
the operand types; one value of one operand remains that no block sends. -/

namespace Sys2Proof

/-- SOFTWARE is taken in the step of the TRIP action (R182) and is never a message of its own; every other source
is an event of its own, taken after the step of the block that sent it (R172). -/
def TripSource.isMessage : TripSource → Bool
  | .fault0 | .fault1 | .limit _ | .interlock _ | .syncLost => true
  | .software => false

/-- A command that can be sent. -/
def Instr.wellFormed : Instr → Bool
  | .tripSource source => source.isMessage
  | _ => true

end Sys2Proof
end

