-- ==== Sys2Proof/Certificates/Slice0/Obligations.lean ====
section
/-! DEFINITION. The statements for the provers. A statement about a command says where it completes, with the whole next
state: what is not named in it is unchanged. -/

section

open Sys2Proof Sys2Proof.Machine

/-! ### The machine and its resets -/

/-- A step takes the command at the front of the queue and runs it with the queue's rest; when no command waits, one
CLK period passes and nothing else changes (the model's form of a step, log entries 1 and 6). Every command answers a
next state, and the queue is not touched by it. -/
def Obligations.StepRunsTheFrontCommand : Prop :=
  ∀ s : State,
    (∀ (c : Instr) (rest : List Instr), s.pending = c :: rest → step s = exec c { s with pending := rest }) ∧
    (s.pending = [] → step s = .next { s with environment := { s.environment with clk := s.environment.clk + 1 } }) ∧
    ∀ c : Instr, ∃ t, exec c s = .next t ∧ t.pending = s.pending

/-- Power-on and the assertion of RST# give every block its power-on values (R15, R86, R106, R134, R157, R170, R188,
R197, R198, R205), abandon everything under way, and leave the pins, the world outside and the queue alone; while RST#
is low every line pin is at high impedance and INT# is high. The state after reset has the same values. The model's own
part: that the pins and the queue are left alone and that a transaction found at power-on is ignored (log entry 7,
DEDUCED), and that in the state after reset RST# and CS# are high and the queue is empty (log entries 1 and 7, DESIGN
CHOICE). -/
def Obligations.PowerOnAndResetValues : Prop :=
  (∀ s : State, ∃ t, exec .powerOn s = .next t ∧ t.PowerOn ∧ t.transit = State.reset.transit ∧
    t.rstLow = s.rstLow ∧ t.environment = s.environment ∧ t.pending = s.pending ∧ t.intLow = false ∧
    t.timebase.nextTick = s.environment.clk + 1 ∧
    t.port.phase = if s.port.phase = .idle then .idle else .ignoring) ∧
  (∀ s : State, ∃ t, exec .rstAssert s = .next t ∧ t.PowerOn ∧ t.transit = State.reset.transit ∧
    t.rstLow = true ∧ t.environment = s.environment ∧ t.pending = s.pending ∧ t.intLow = false ∧
    (∀ i : Fin 16, t.linePin i = .highImpedance) ∧ t.misoDriven = false ∧
    t.port.phase = if s.port.phase = .idle then .idle else .ignoring) ∧
  State.reset.PowerOn ∧ State.reset.rstLow = false ∧ State.reset.pending = [] ∧ State.reset.port.phase = .idle

/-- While RST# is low no command but POWER_ON and the edges of RST# and CS# changes anything; a fall of CS# starts no
transaction. When RST# returns high every block keeps the values it held, each line pin is driven from its record, and
the first tick comes one CLK period later (R63, R86, R134, R193). The pin follows level and polarity by the table of
R108. -/
def Obligations.HeldWhileResetIsLow : Prop :=
  ∀ s : State, s.rstLow = true →
    (∀ c : Instr, c ∉ [Instr.powerOn, .rstAssert, .rstRelease, .csFall, .csRise] → exec c s = .next s) ∧
    (s.port.phase = .idle → exec .csFall s = .next { s with port := { s.port with phase := .ignoring } }) ∧
    (exec .rstRelease s = .next
      { s with rstLow := false, timebase := { s.timebase with nextTick := s.environment.clk + 1 } }) ∧
    ∀ i : Fin 16, State.linePin { s with rstLow := false } i = match s.lines[i].level, s.lines[i].polarity with
      | .active, .activeHigh => .high
      | .active, .activeLow => .low
      | .inactive, .activeHigh => .low
      | .inactive, .activeLow => .high
      | .released, .activeHigh => .highImpedance
      | .released, .activeLow => .highImpedance

/-! ### The host port -/

/-- CS_FALL takes the status byte, COMMAND_BYTE sets direction and current address and, in a read transaction, takes the
first word, and CS_RISE ends the transaction in every state (R190 to R193). At the end of a read word the current address
goes on by one, from 7Fh to 00h, and the next word is taken there (R192). Nothing else changes. The model's own part: that
REGISTER_WRITE stands for the end of a read word (log entry 19, DESIGN CHOICE), and that a read transaction that comes to
10h waits in a phase of its own for its record read, so that CS_RISE there takes no record (log entry 7, DEDUCED). -/
def Obligations.TransactionRunsBetweenEdgesOfCs : Prop :=
  (∀ s : State, s.rstLow = false → s.port.phase = .idle →
    exec .csFall s = .next { s with port := { s.port with phase := .command, statusByte := s.statusNow } }) ∧
  (∀ (s : State) (byte : Byte) (a : Address), s.rstLow = false → s.port.phase = .command →
    (∀ k : Nat, k < 7 → a.getLsbD k = byte.getLsbD k) →
    (byte.getLsbD 7 = false →
      exec (.commandByte byte) s = .next { s with port := { s.port with phase := .writing a, readWord := 0#16 } }) ∧
    (byte.getLsbD 7 = true → a ≠ 0x10#7 →
      exec (.commandByte byte) s =
        .next { s with port := { s.port with phase := .reading a, readWord := s.readRegister a } }) ∧
    (byte.getLsbD 7 = true → a = 0x10#7 →
      exec (.commandByte byte) s = .next { s with port := { s.port with phase := .recordDue } })) ∧
  (∀ (s : State) (a b : Address) (w : Word), s.rstLow = false → s.port.phase = .reading a →
    b = (if a = 0x7F#7 then 0x00#7 else a + 1#7) →
    (b ≠ 0x10#7 → exec (.registerWrite w) s =
      .next { s with port := { s.port with phase := .reading b, readWord := s.readRegister b } }) ∧
    (b = 0x10#7 → exec (.registerWrite w) s = .next { s with port := { s.port with phase := .recordDue } })) ∧
  ∀ s : State, exec .csRise s = .next { s with port := { s.port with phase := .idle } }

/-- The read side of the register map. The status byte and STATUS read the fields that R191 and R195 place in them, one by
one; each other address reads its register: ID, ACT_RESULT with the codes of R197, the flags and enables (R204), P0 to P3 (R198), generation,
frame number, tick, the validation report field by field (R50, R195), the ring and trip counts (R194), the counters
(R202), and 0 where there is no register and at the action registers (R193, R196). -/
def Obligations.StatusReadOuts : Prop :=
  ∀ s : State,
    ((s.statusNow.getLsbD 7 = true ↔ s.trip.state = .tripped) ∧
      (s.statusNow.getLsbD 6 = true ↔
        ∃ k : Nat, k < 13 ∧ s.interrupts.flags.getLsbD k = true ∧ s.interrupts.enables.getLsbD k = true) ∧
      ((s.statusNow.extractLsb' 4 2).toNat = match s.plan.staging with
        | .editing => 0 | .copying => 1 | .validating => 2 | .pending => 3) ∧
      (s.statusNow.getLsbD 3 = true ↔ s.timebase.state = .awaitSync ∨ s.timebase.state = .running ∨
        s.timebase.state = .holding ∨ s.timebase.state = .stopping) ∧
      (s.statusNow.getLsbD 2 = true ↔ s.ring.records ≠ []) ∧
      (s.statusNow.getLsbD 1 = true ↔ s.port.code ≠ .ok) ∧
      (s.statusNow.getLsbD 0 = true ↔ s.converter.state ≠ .idle)) ∧
    (s.sampler.queue.length ≤ 4 → s.converter.trim ≤ 31 →
      (((s.readRegister 0x02#7).extractLsb' 0 3).toNat = match s.timebase.state with
        | .stopped => 0 | .awaitSync => 1 | .running => 2 | .holding => 3 | .stopping => 4
        | .halted => if s.trip.state = .tripped then 6 else 5) ∧
      (((s.readRegister 0x02#7).extractLsb' 3 2).toNat = match s.plan.staging with
        | .editing => 0 | .copying => 1 | .validating => 2 | .pending => 3) ∧
      (((s.readRegister 0x02#7).extractLsb' 5 4).toNat = match s.converter.state with
        | .idle => 0
        | .converting _ => 1 + s.sampler.queue.length
        | .calPending _ => 6 + s.sampler.queue.length
        | .calibrating _ _ _ => 11 + s.sampler.queue.length) ∧
      (((s.readRegister 0x02#7).extractLsb' 9 2).toNat = match s.converter.report with
        | .none => 0 | .done => 1 | .atLimit => 2 | .cancelled => 3) ∧
      ((s.readRegister 0x02#7).extractLsb' 11 5).toNat = s.converter.trim) ∧
    (s.readRegister 0x00#7 = 0x5A08#16 ∧
      ((s.readRegister 0x01#7).extractLsb' 0 8).toNat = (match s.port.code with
        | .ok => 0 | .busy => 1 | .state => 2 | .tripped => 3 | .full => 4 | .duplicate => 5 | .notFound => 6
        | .range => 7 | .config => 8 | .interlock => 9 | .running => 10 | .tooLate => 11 | .faultActive => 12) ∧
      ((s.readRegister 0x01#7).extractLsb' 8 8).toNat = s.port.actAddress.toNat ∧
      (∀ k : Nat, (s.readRegister 0x03#7).getLsbD k = s.interrupts.flags.getLsbD k) ∧
      (∀ k : Nat, (s.readRegister 0x04#7).getLsbD k = s.interrupts.enables.getLsbD k) ∧
      s.readRegister 0x05#7 = s.port.p0 ∧ s.readRegister 0x06#7 = s.port.p1 ∧
      s.readRegister 0x07#7 = s.port.p2 ∧ s.readRegister 0x08#7 = s.port.p3 ∧
      s.readRegister 0x09#7 = s.plan.generation ∧ s.readRegister 0x0A#7 = s.timebase.frameNumber ∧
      s.readRegister 0x0B#7 = BitVec.ofNat 16 s.timebase.tick) ∧
    (s.validator.report = .none →
      s.readRegister 0x0C#7 = 0#16 ∧ s.readRegister 0x0D#7 = 0#16 ∧ s.readRegister 0x0E#7 = 0#16) ∧
    (∀ junction, s.validator.report = .pass junction →
      s.readRegister 0x0C#7 = 0x0001#16 ∧ s.readRegister 0x0D#7 = 0#16 ∧
      s.readRegister 0x0E#7 = if junction then 0x0200#16 else 0x0000#16) ∧
    (∀ junction check parity offset line startRise,
      s.validator.report = .fail junction check parity offset line startRise →
      s.readRegister 0x0C#7 = (match check with
        | .alternation => 0x0102#16 | .interlock => 0x0202#16 | .transition => 0x0302#16) ∧
      s.readRegister 0x0D#7 = BitVec.ofNat 16 offset ∧
      ((s.readRegister 0x0E#7).extractLsb' 0 8).toNat = line.val ∧
      ((s.readRegister 0x0E#7).getLsbD 8 = true ↔ parity = .odd) ∧
      (s.readRegister 0x0E#7).getLsbD 9 = junction ∧ (s.readRegister 0x0E#7).getLsbD 10 = startRise ∧
      (s.readRegister 0x0E#7).extractLsb' 11 5 = 0#5) ∧
    (∀ cause, s.validator.report = .cancelled cause →
      s.readRegister 0x0C#7 = (match cause with
        | .trip => 0x0103#16 | .softReset => 0x0203#16) ∧
      s.readRegister 0x0D#7 = 0#16 ∧ s.readRegister 0x0E#7 = 0#16) ∧
    (s.readRegister 0x14#7 = BitVec.ofNat 16 (s.ring.records.length + 256 * s.ring.watermark) ∧
      s.readRegister 0x15#7 = BitVec.ofNat 16 s.trip.records.length ∧
      s.readRegister 0x40#7 = BitVec.ofNat 16 s.timebase.skipCount ∧
      s.readRegister 0x41#7 = BitVec.ofNat 16 s.timebase.missCount ∧
      (∀ g : Fin 6, s.readRegister (BitVec.ofNat 7 (0x42 + g.val)) = BitVec.ofNat 16 s.groups[g].deferred) ∧
      (∀ g : Fin 6, s.readRegister (BitVec.ofNat 7 (0x48 + g.val)) = BitVec.ofNat 16 s.groups[g].abandoned) ∧
      (∀ n : Fin 8, s.readRegister (BitVec.ofNat 7 (0x4E + n.val)) = BitVec.ofNat 16 s.sampler.slots[n].drops) ∧
      s.readRegister 0x56#7 = BitVec.ofNat 16 s.ring.lost ∧
      s.readRegister 0x57#7 = BitVec.ofNat 16 s.trip.overflow) ∧
    ∀ a : Address, a = 0x0F#7 ∨ (0x16#7 ≤ a ∧ a ≤ 0x3F#7) ∨ 0x58#7 ≤ a → s.readRegister a = 0#16

/-- Write words that request no action. At an address whose write has no row of its own the word sets P0, P1, P2 or P3 there
and is ignored at every other (R193, R198); the current address goes on by one and wraps from 7Fh to 00h (R192). At IFLAG it
clears exactly the flags whose bit is 1 and never sets one (R204); at IENABLE it replaces the 13 enables (R205). Nothing
else changes. -/
def Obligations.WriteWordsReachTheirRegisters : Prop :=
  (∀ (s : State) (a : Address) (w : Word), s.atWord a → a ≠ 0x03#7 → a ≠ 0x04#7 → ¬(0x20#7 ≤ a ∧ a ≤ 0x3D#7) →
    exec (.registerWrite w) s = .next { s with port := { s.port with
      phase := .writing (if a = 0x7F#7 then 0x00#7 else a + 1#7),
      readWord := 0#16,
      p0 := if a = 0x05#7 then w else s.port.p0,
      p1 := if a = 0x06#7 then w else s.port.p1,
      p2 := if a = 0x07#7 then w else s.port.p2,
      p3 := if a = 0x08#7 then w else s.port.p3 } }) ∧
  (∀ (s : State) (w : Word), s.atWord 0x03#7 →
    ∃ flags : BitVec 13,
      (∀ k : Nat, flags.getLsbD k = (s.interrupts.flags.getLsbD k && !w.getLsbD k)) ∧
      exec (.iflagWrite w) s =
        .next { s.afterWord 0x03#7 with interrupts := { flags := flags, enables := s.interrupts.enables } }) ∧
  (∀ (s : State) (w : Word), s.atWord 0x04#7 →
    ∃ enables : BitVec 13,
      (∀ k : Nat, k < 13 → enables.getLsbD k = w.getLsbD k) ∧
      exec (.ienableWrite w) s =
        .next { s.afterWord 0x04#7 with interrupts := { flags := s.interrupts.flags, enables := enables } })

/-- A read word at 10h takes the head record out of the ring into the view, or empties the view when the ring is empty, and
the word returned is the view's (R166, R167). Nothing else changes. Registers 10h to 13h read the words of the view as it
stands (R194, R200), all of them 0 when it is empty. That a read transaction at 10h waits for its record read as a phase of
its own is the model's form (log entry 7, DEDUCED). -/
def Obligations.RecordReadTakesTheHead : Prop :=
  (∀ (s : State) (r : Result) (rest : List Result), s.rstLow = false → s.port.phase = .recordDue →
    s.ring.records = r :: rest →
    exec .recordRead s = .next { s with
      ring := { s.ring with records := rest, view := some r },
      port := { s.port with phase := .reading 0x10#7, readWord := viewWord0 (some r) } }) ∧
  (∀ s : State, s.rstLow = false → s.port.phase = .recordDue → s.ring.records = [] →
    exec .recordRead s = .next { s with
      ring := { s.ring with view := none },
      port := { s.port with phase := .reading 0x10#7, readWord := 0#16 } }) ∧
  (∀ s : State, s.readRegister 0x10#7 = viewWord0 s.ring.view ∧ s.readRegister 0x11#7 = viewWord1 s.ring.view ∧
    s.readRegister 0x12#7 = viewWord2 s.ring.view ∧ s.readRegister 0x13#7 = viewWord3 s.ring.view) ∧
  ∀ s : State, s.ring.view = none →
    s.readRegister 0x10#7 = 0#16 ∧ s.readRegister 0x11#7 = 0#16 ∧ s.readRegister 0x12#7 = 0#16 ∧
    s.readRegister 0x13#7 = 0#16

/-- A command that is a write word happens only where that word completes, at its own address; there it moves the
current address on, and an action writes ACT_RESULT with its own address in the upper byte (R192, R196, R197). That a
command sent where no word completes at its address leaves the state as it is, is the model's choice (log entries 7 and
8, DESIGN CHOICE). -/
def Obligations.ActionsHappenAtTheirAddress : Prop :=
  ∀ (c : Instr) (a : Address) (s : State), c.address = some a →
    (¬s.atWord a → exec c s = .next s) ∧
    (s.atWord a → ∃ t, exec c s = .next t ∧ t.port.phase = .writing (a + 1#7) ∧ t.rstLow = s.rstLow ∧
      (0x20#7 ≤ a → t.port.actAddress = a ∧
        t.readRegister 0x01#7 = BitVec.ofNat 16 (t.port.code.code + 256 * a.toNat)))

/-- A refused action changes nothing but ACT_RESULT and the current address. WITHDRAW clears the late-withdraw
indicator even when refused (R57), and the two entry read-backs write P2 and P3 even when refused with NOT_FOUND (R11);
every other field is untouched by those three as well. -/
def Obligations.RefusedActionsChangeNothing : Prop :=
  ∀ (c : Instr) (a : Address) (s t : State), c.address = some a → 0x20#7 ≤ a → s.atWord a →
    exec c s = .next t → t.port.code ≠ .ok →
    (c ≠ .withdraw → c ≠ .readStageEntry → c ≠ .readActiveEntry → t = s.acted a t.port.code) ∧
    (c = .withdraw → t = State.acted { s with plan := { s.plan with lateWithdraw := false } } a t.port.code) ∧
    (c = .readStageEntry ∨ c = .readActiveEntry →
      t = (s.withParams s.port.p0 s.port.p1 t.port.p2 t.port.p3).acted a t.port.code ∧
      (t.port.code ≠ .notFound → t.port.p2 = s.port.p2 ∧ t.port.p3 = s.port.p3))

/-! ### The register map and the layouts -/

/-- The register map is one-to-one: a write word at the address of a command spells that command, and a command that is
a write word is spelled by a word at its address and at no other (R194, R196). -/
def Obligations.ActionAddressesRoundTrip : Prop :=
  (∀ (c : Instr) (a : Address), c.address = some a → ∃ w, commandAt a w = some c) ∧
  (∀ (c : Instr) (a : Address) (w : Word), commandAt a w = some c → c.address = some a) ∧
  ∀ (a : Address) (w : Word),
    (commandAt a w).isSome = true ↔ a = 0x03#7 ∨ a = 0x04#7 ∨ (0x20#7 ≤ a ∧ a ≤ 0x3D#7)

/-- The edge-entry layout (R199): each field of an entry stands in its bits of P0 and P1 with the code of R199; what a
read-back writes to P0 and P1 of an entry that a bank can hold, INSERT_EDGE reads back as that entry; and what INSERT_EDGE reads from P0 and P1, a read-back writes with the bits that are not
examined at 0. -/
def Obligations.EntryLayoutRoundTrip : Prop :=
  (∀ e : Entry, e.offset < 65536 →
    e.word0.toNat = e.offset ∧
    (e.word1.extractLsb' 0 4).toNat = e.line.val ∧
    (e.word1.extractLsb' 4 2).toNat = (match e.action with
      | .rise => 0 | .fall => 1 | .mark => 2) ∧
    (e.word1.extractLsb' 6 2).toNat = (match e.cadence with
      | .every => 0 | .even => 1 | .odd => 2) ∧
    (e.word1.extractLsb' 8 3).toNat = (match e.tag with
      | some slot => slot.val | none => 0) ∧
    e.word1.getLsbD 11 = e.tag.isSome ∧ e.word1.extractLsb' 12 4 = 0#4) ∧
  (∀ e : Entry, e.offset < 65536 → (e.action = .mark → e.tag ≠ none) → entryOf e.word0 e.word1 = some e) ∧
  (∀ (p0 p1 : Word) (e : Entry), entryOf p0 p1 = some e →
    e.word0 = p0 ∧ ∀ k : Nat, e.word1.getLsbD k =
      (decide (k < 12) && p1.getLsbD k && (p1.getLsbD 11 || !(decide (8 ≤ k) && decide (k ≤ 10))))) ∧
  ∀ p0 p1 : Word, entryOf p0 p1 = none ↔
    p1.extractLsb' 4 2 = 3#2 ∨ p1.extractLsb' 6 2 = 3#2 ∨ (p1.extractLsb' 4 2 = 2#2 ∧ p1.getLsbD 11 = false)

/-- The result-view layout (R200) and the trip-record layout (R201): every field of a record is read from its bits. -/
def Obligations.RecordLayouts : Prop :=
  (∀ r : Result, r.wait ≤ 1023 → r.value ≤ 4095 →
    ((viewWord0 (some r)).extractLsb' 0 10).toNat = r.wait ∧
    (viewWord0 (some r)).getLsbD 10 = r.gap ∧
    (((viewWord0 (some r)).extractLsb' 11 5).toNat - 1) / 3 = r.channel.val ∧
    (((viewWord0 (some r)).extractLsb' 11 5).toNat - 1) % 3 = (match r.mark with
      | .neither => 0 | .below => 1 | .above => 2) ∧
    1 ≤ ((viewWord0 (some r)).extractLsb' 11 5).toNat ∧
    ((viewWord3 (some r)).extractLsb' 0 12).toNat = r.value ∧
    ((viewWord3 (some r)).extractLsb' 12 3).toNat = r.slot.val ∧
    ((viewWord3 (some r)).getLsbD 15 = true ↔ r.origin = .software) ∧
    (∀ (frame : Word) (tick : Nat), r.origin = .edge frame tick →
      viewWord1 (some r) = frame ∧ viewWord2 (some r) = BitVec.ofNat 16 tick) ∧
    (r.origin = .software → viewWord1 (some r) = 0#16 ∧ viewWord2 (some r) = 0#16)) ∧
  ∀ (r : TripRecord) (count : Nat), count ≤ 4 →
    ((r.word0 count).extractLsb' 0 3).toNat = (match r.source with
      | .fault0 => 0 | .fault1 => 1 | .limit _ => 2 | .interlock _ => 3 | .syncLost => 4 | .software => 5) ∧
    (r.word0 count).getLsbD 3 = (match r.source with
      | .limit _ | .interlock _ => true
      | .fault0 | .fault1 | .syncLost | .software => false) ∧
    ((r.word0 count).extractLsb' 4 3).toNat = (match r.source with
      | .limit slot => slot.val
      | .interlock group => group.val
      | .fault0 | .fault1 | .syncLost | .software => 0) ∧
    (r.word0 count).getLsbD 7 = r.stamp.isSome ∧
    ((r.word0 count).extractLsb' 8 8).toNat = count ∧
    (∀ (frame : Word) (tick : Nat), r.stamp = some (frame, tick) →
      r.word1 = frame ∧ r.word2 = BitVec.ofNat 16 tick) ∧
    (r.stamp = none → r.word1 = 0#16 ∧ r.word2 = 0#16)

/-! ### Editing the staging plan -/

/-- INSERT_EDGE (R21, R24, R25): the staging state first, then CONFIG, RANGE, DUPLICATE and FULL in that order; a taken
entry stands behind the entries with a smaller key and before those with a greater one, and the mark and table go. -/
def Obligations.InsertEdgeChecksAndPlaces : Prop :=
  ∀ s : State, s.atWord 0x20#7 → s.plan.stagingPlan.Lawful →
    (s.plan.staging ≠ .editing → exec .insertEdge s = .next (s.acted 0x20#7 .busy)) ∧
    (s.plan.staging = .editing → entryOf s.port.p0 s.port.p1 = none →
      exec .insertEdge s = .next (s.acted 0x20#7 .config)) ∧
    ∀ e : Entry, s.plan.staging = .editing → entryOf s.port.p0 s.port.p1 = some e →
      (s.plan.stagingPlan.frameLength ≤ e.offset → exec .insertEdge s = .next (s.acted 0x20#7 .range)) ∧
      (e.offset < s.plan.stagingPlan.frameLength →
        ((∃ f ∈ s.plan.stagingPlan.entries, f.offset = e.offset ∧ f.line = e.line) →
          exec .insertEdge s = .next (s.acted 0x20#7 .duplicate)) ∧
        ((¬∃ f ∈ s.plan.stagingPlan.entries, f.offset = e.offset ∧ f.line = e.line) →
          (64 ≤ s.plan.stagingPlan.entries.length → exec .insertEdge s = .next (s.acted 0x20#7 .full)) ∧
          (s.plan.stagingPlan.entries.length < 64 →
            exec .insertEdge s = .next ((s.setStaging { s.plan.stagingPlan with
              entries :=
                (s.plan.stagingPlan.entries.filter fun f =>
                    f.offset < e.offset ∨ (f.offset = e.offset ∧ f.line < e.line))
                  ++ e :: (s.plan.stagingPlan.entries.filter fun f =>
                    e.offset < f.offset ∨ (e.offset = f.offset ∧ e.line < f.line)),
              table := none }).acted 0x20#7 .ok))))

/-- REMOVE_EDGE (R21, R26): BUSY outside EDITING; the one entry with the key of P0 and P1 leaves, with the mark and
table; without one, NOT_FOUND. -/
def Obligations.RemoveEdgeRemovesTheKey : Prop :=
  ∀ s : State, s.atWord 0x21#7 → s.plan.stagingPlan.Lawful →
    (s.plan.staging ≠ .editing → exec .removeEdge s = .next (s.acted 0x21#7 .busy)) ∧
    (s.plan.staging = .editing →
      (∀ e ∈ s.plan.stagingPlan.entries,
        e.offset = s.port.p0.toNat → e.line.val = (s.port.p1.extractLsb' 0 4).toNat →
        exec .removeEdge s = .next ((s.setStaging { s.plan.stagingPlan with
          entries := s.plan.stagingPlan.entries.erase e, table := none }).acted 0x21#7 .ok)) ∧
      ((∀ e ∈ s.plan.stagingPlan.entries,
        ¬(e.offset = s.port.p0.toNat ∧ e.line.val = (s.port.p1.extractLsb' 0 4).toNat)) →
        exec .removeEdge s = .next (s.acted 0x21#7 .notFound)))

/-- CLEAR_STAGE (R27) and SET_FRAME_LENGTH (R28) in EDITING, and both refused with BUSY in any other staging state (R21);
an edit that leaves the bank as it was leaves its mark and table. -/
def Obligations.ClearStageAndSetFrameLength : Prop :=
  (∀ s : State, s.atWord 0x22#7 →
    (s.plan.staging ≠ .editing → exec .clearStage s = .next (s.acted 0x22#7 .busy)) ∧
    (s.plan.staging = .editing → s.plan.stagingPlan.entries = [] →
      exec .clearStage s = .next (s.acted 0x22#7 .ok)) ∧
    (s.plan.staging = .editing → s.plan.stagingPlan.entries ≠ [] →
      exec .clearStage s = .next ((s.setStaging
        { frameLength := s.plan.stagingPlan.frameLength, entries := [], table := none }).acted 0x22#7 .ok))) ∧
  ∀ s : State, s.atWord 0x24#7 →
    (s.plan.staging ≠ .editing → exec .setFrameLength s = .next (s.acted 0x24#7 .busy)) ∧
    (s.plan.staging = .editing →
      (s.port.p0.toNat < 16 ∨ (∃ e ∈ s.plan.stagingPlan.entries, s.port.p0.toNat ≤ e.offset) →
        exec .setFrameLength s = .next (s.acted 0x24#7 .range)) ∧
      (16 ≤ s.port.p0.toNat → (∀ e ∈ s.plan.stagingPlan.entries, e.offset < s.port.p0.toNat) →
        (s.port.p0.toNat = s.plan.stagingPlan.frameLength →
          exec .setFrameLength s = .next (s.acted 0x24#7 .ok)) ∧
        (s.port.p0.toNat ≠ s.plan.stagingPlan.frameLength →
          exec .setFrameLength s = .next ((s.setStaging
            { frameLength := s.port.p0.toNat, entries := s.plan.stagingPlan.entries, table := none }).acted
            0x24#7 .ok))))

/-- COPY_ACTIVE is taken in EDITING alone and starts a copy (R21, R29); the completion writes the whole active plan into
the staging bank, returns to EDITING and sets COPIED (R30, R34), whatever the trip and timebase states. -/
def Obligations.CopyTakesTheActivePlan : Prop :=
  (∀ s : State, s.atWord 0x23#7 →
    (s.plan.staging ≠ .editing → exec .copyActive s = .next (s.acted 0x23#7 .busy)) ∧
    (s.plan.staging = .editing →
      exec .copyActive s = .next (State.acted { s with plan := { s.plan with
        staging := .copying, lateWithdraw := false, since := s.environment.clk } } 0x23#7 .ok))) ∧
  ∀ s : State, s.rstLow = false → s.plan.staging = .copying →
    exec .copyCompletion s = .next (State.withFlags { s with plan :=
      { s.plan with
        bankA := s.plan.active, bankB := s.plan.active, staging := .editing } } 0x0010#13)

/-- READ_STAGE_ENTRY and READ_ACTIVE_ENTRY (R11 to R13): a found entry goes to P0 and P1; with it, and with NOT_FOUND, P2
takes the bank's count and mark, and P3 the staging frame length or the generation. READ_STAGE_ENTRY is refused with
BUSY while a copy is in flight. No bank changes. -/
def Obligations.EntryReadBacks : Prop :=
  (∀ s : State, s.atWord 0x25#7 →
    (s.plan.staging = .copying → exec .readStageEntry s = .next (s.acted 0x25#7 .busy)) ∧
    (s.plan.staging ≠ .copying → s.plan.stagingPlan.entries.length ≤ 64 → ∃ p2 : Word,
      (p2.extractLsb' 0 15).toNat = s.plan.stagingPlan.entries.length ∧
      p2.getLsbD 15 = s.plan.stagingPlan.table.isSome ∧
      (∀ e, s.plan.stagingPlan.entries[s.port.p0.toNat]? = some e →
        exec .readStageEntry s = .next ((s.withParams e.word0 e.word1 p2
          (BitVec.ofNat 16 s.plan.stagingPlan.frameLength)).acted 0x25#7 .ok)) ∧
      (s.plan.stagingPlan.entries.length ≤ s.port.p0.toNat →
        exec .readStageEntry s = .next ((s.withParams s.port.p0 s.port.p1 p2
          (BitVec.ofNat 16 s.plan.stagingPlan.frameLength)).acted 0x25#7 .notFound)))) ∧
  ∀ s : State, s.atWord 0x26#7 → s.plan.active.entries.length ≤ 64 → ∃ p2 : Word,
    (p2.extractLsb' 0 15).toNat = s.plan.active.entries.length ∧
    p2.getLsbD 15 = s.plan.active.table.isSome ∧
    (∀ e, s.plan.active.entries[s.port.p0.toNat]? = some e →
      exec .readActiveEntry s =
        .next ((s.withParams e.word0 e.word1 p2 s.plan.generation).acted 0x26#7 .ok)) ∧
    (s.plan.active.entries.length ≤ s.port.p0.toNat →
      exec .readActiveEntry s =
        .next ((s.withParams s.port.p0 s.port.p1 p2 s.plan.generation).acted 0x26#7 .notFound))

/-! ### Validation and commit -/

/-- COMMIT (R38): BUSY outside EDITING, then TRIPPED; taken, the validator runs, whether TRANSITION will run is noted,
and the late-withdraw indicator is cleared (R57). The model's own part: the check asks the trip controller's state alone,
so that a COMMIT is taken once the controller is ARMED though the clear notice is under way (R51 against the last sentence
of R38), and refused once it is TRIPPED though the plan store has not taken the trip notice (log entry 16, DEDUCED). -/
def Obligations.CommitStartsValidation : Prop :=
  ∀ s : State, s.atWord 0x27#7 →
    (s.plan.staging ≠ .editing → exec .commit s = .next (s.acted 0x27#7 .busy)) ∧
    (s.plan.staging = .editing → s.trip.state = .tripped → exec .commit s = .next (s.acted 0x27#7 .tripped)) ∧
    (s.plan.staging = .editing → s.trip.state = .armed →
      exec .commit s = .next (State.acted { s with
        plan := { s.plan with staging := .validating, lateWithdraw := false, since := s.environment.clk },
        validator := { s.validator with
          running := true, junction := decide (s.timebase.state ≠ .stopped) } } 0x27#7 .ok))

/-- VALIDATION_COMPLETION (R51, R52, R55): a pass writes the derived table with the mark and the report PASS and sets
VPASS; it swaps at once with TAKEN when the timebase is STOPPED, and waits in PENDING otherwise. A failure returns to
EDITING with its report and VFAIL and leaves the bank. The failure of a validation: ALTERNATION, then INTERLOCK, then
TRANSITION over the two junctions when the commit noted it, the first that fails with the fields of its report (R41, R47,
R49, R50). INTERLOCK walks the cycle behind itself, a junction the start events and the new frame behind the active cycle
(R45, R48), and each reports the first rise at which the condition of R45 does not hold. -/
def Obligations.ValidationCompletes : Prop :=
  (∀ (t : GroupTable) (old new : Plan) (junction : Bool),
    (∀ o, new.firstRepeat = some o → validationFailure t old new junction =
      some (.fail false .alternation o.parity o.offset o.line false)) ∧
    (new.firstRepeat = none →
      (∀ o, new.firstInterlock t = some o → validationFailure t old new junction =
        some (.fail false .interlock o.parity o.offset o.line false)) ∧
      (new.firstInterlock t = none →
        (junction = false → validationFailure t old new junction = none) ∧
        (junction = true →
          (∀ o, junctionConflict t old new .even = some o → validationFailure t old new junction =
            some (.fail true .transition .even o.offset o.line o.startRise)) ∧
          (junctionConflict t old new .even = none →
            (∀ o, junctionConflict t old new .odd = some o → validationFailure t old new junction =
              some (.fail true .transition .odd o.offset o.line o.startRise)) ∧
            (junctionConflict t old new .odd = none → validationFailure t old new junction = none)))))) ∧
  (∀ (t : GroupTable) (history walk : List Occurrence),
    (t.firstConflict history walk = none ↔ ∀ before o after, walk = before ++ o :: after → o.rises = true →
      t.RiseApart (before.reverse ++ history) o) ∧
    ∀ o, t.firstConflict history walk = some o → ∃ before after, walk = before ++ o :: after ∧ o.rises = true ∧
      ¬t.RiseApart (before.reverse ++ history) o ∧
      ∀ earlier u later, before = earlier ++ u :: later → u.rises = true →
        t.RiseApart (earlier.reverse ++ history) u) ∧
  (∀ (t : GroupTable) (old new : Plan) (parity : Parity) (starts : List Occurrence),
    starts =
      ((allLines.filter fun i => activeAfter (old.twoFrames parity 0).reverse i = true ∧
          new.derivedTable.level parity i ≠ .active).map fun i =>
        ⟨2 * old.frameLength, i, false, parity, 0, true⟩)
      ++ ((allLines.filter fun i => activeAfter (old.twoFrames parity 0).reverse i = false ∧
          new.derivedTable.level parity i = .active).map fun i =>
        ⟨2 * old.frameLength, i, true, parity, 0, true⟩) →
    new.firstInterlock t = t.firstConflict new.cycle.reverse (new.twoFrames .even (2 * new.frameLength)) ∧
    junctionConflict t old new parity = t.firstConflict (old.twoFrames parity 0).reverse
      (starts ++ new.frameOccurrences parity (2 * old.frameLength))) ∧
  ∀ s : State, s.rstLow = false → s.plan.staging = .validating → s.validator.running = true →
    (validationFailure s.groupTable s.plan.active s.plan.stagingPlan s.validator.junction = none →
      (s.timebase.state = .stopped →
        exec .validationCompletion s = .next (State.withFlags { s with
          plan := { s.plan.withStaging { s.plan.stagingPlan with table := some s.plan.stagingPlan.derivedTable } with
            selector := s.plan.selector.other, generation := s.plan.generation + 1#16, staging := .editing,
            lateWithdraw := true },
          validator := ⟨false, s.validator.junction, .pass s.validator.junction⟩ } 0x0006#13)) ∧
      (s.timebase.state ≠ .stopped →
        exec .validationCompletion s = .next (State.withFlags { s with
          plan := { s.plan.withStaging { s.plan.stagingPlan with table := some s.plan.stagingPlan.derivedTable } with
            staging := .pending },
          validator := ⟨false, s.validator.junction, .pass s.validator.junction⟩ } 0x0004#13))) ∧
    ∀ report, validationFailure s.groupTable s.plan.active s.plan.stagingPlan s.validator.junction = some report →
      exec .validationCompletion s = .next (State.withFlags { s with
        plan := { s.plan with staging := .editing },
        validator := ⟨false, s.validator.junction, report⟩ } 0x0008#13)

/-- The start level of a line for a parity (R7, R43): REST for a line without a RISE or FALL; otherwise the level left
by its last RISE or FALL of the frame before, or, when it has none there, of the frame of that parity. -/
def Obligations.StartLevelsFollowTheLastEdge : Prop :=
  ∀ (p : Plan) (parity : Parity) (line : Fin 16), p.Lawful →
    ((∀ e ∈ p.entries, e.line = line → e.action = .mark) → p.derivedTable.level parity line = .rest) ∧
    ∀ e ∈ p.entries, e.line = line → e.action ≠ .mark →
      ((e.cadence.due parity.other = true ∧
          ∀ f ∈ p.entries, f.line = line → f.action ≠ .mark → f.cadence.due parity.other = true → f.offset ≤ e.offset) ∨
        ((∀ f ∈ p.entries, f.line = line → f.action ≠ .mark → f.cadence.due parity.other = false) ∧
          ∀ f ∈ p.entries, f.line = line → f.action ≠ .mark → f.offset ≤ e.offset)) →
      p.derivedTable.level parity line = if e.action = .rise then .active else .inactive

/-- ALTERNATION (R42) passes exactly when no occurrence of the cycle repeats the action of its predecessor, the last
occurrence of its line before it, counting backwards cyclically; otherwise it reports the first that does. The cycle
holds one occurrence for each RISE and FALL entry in each of the two frames in which it is due, in cycle order (R41). -/
def Obligations.AlternationFindsTheFirstRepeat : Prop :=
  ∀ p : Plan,
    (∀ o, o ∈ p.cycle ↔ ∃ e ∈ p.entries, ∃ parity, e.cadence.due parity = true ∧ e.action ≠ .mark ∧
      o = ⟨(if parity = .even then 0 else p.frameLength) + e.offset, e.line, decide (e.action = .rise), parity,
        e.offset, false⟩) ∧
    (p.Lawful → p.cycle.Pairwise fun o u => o.time < u.time ∨ (o.time = u.time ∧
      ((o.rises = false ∧ u.rises = true) ∨ (o.rises = u.rises ∧ o.line < u.line)))) ∧
    (p.firstRepeat = none ↔ ∀ before o after, p.cycle = before ++ o :: after →
      ∀ q, lastOf (before.reverse ++ p.cycle.reverse) o.line = some q → q.rises ≠ o.rises) ∧
    ∀ o, p.firstRepeat = some o → ∃ before after, p.cycle = before ++ o :: after ∧
      (∃ q, lastOf (before.reverse ++ p.cycle.reverse) o.line = some q ∧ q.rises = o.rises) ∧
      ∀ earlier u later, before = earlier ++ u :: later →
        ∀ q, lastOf (earlier.reverse ++ p.cycle.reverse) u.line = some q → q.rises ≠ u.rises

/-- What validation promises. A plan that passes INTERLOCK has, at no point of its cycle, two members of one group both
ACTIVE, and each of its rises finds the last fall of every other member at least the group's gap away (R45). A junction that
passes TRANSITION keeps the groups apart from the end of an old frame whose plan passed INTERLOCK, through the start events
and the whole new frame (R48, R49). -/
def Obligations.PassedChecksKeepGroupsApart : Prop :=
  ∀ (old : Plan) (t : GroupTable), old.firstInterlock t = none →
    ∀ (g : Fin 6) (x y : Fin 16), x ≠ y → t.groupOf x = some g → t.groupOf y = some g →
      (∀ walked, walked <+: old.cycle →
        ¬(activeAfter (walked.reverse ++ old.cycle.reverse) x = true ∧
          activeAfter (walked.reverse ++ old.cycle.reverse) y = true)) ∧
      (∀ before o after f, old.twoFrames .even (2 * old.frameLength) = before ++ o :: after → o.rises = true →
        o.line = x → lastFallOf (before.reverse ++ old.cycle.reverse) y = some f → t.gapOf g ≤ o.time - f.time) ∧
      ∀ (new : Plan) (parity : Parity), junctionConflict t old new parity = none →
        ∀ walked, walked <+: startEvents (old.twoFrames parity 0).reverse new parity (2 * old.frameLength)
            ++ new.frameOccurrences parity (2 * old.frameLength) →
          ¬(activeAfter (walked.reverse ++ (old.twoFrames parity 0).reverse) x = true ∧
            activeAfter (walked.reverse ++ (old.twoFrames parity 0).reverse) y = true)

/-- A commit ended by WITHDRAW (R56, R57) or by the trip notice (R59): both leave the bank as it stands and return to
EDITING; only the trip notice writes the report. A WITHDRAW with no commit to end is refused, once with TOO_LATE after
a swap, and clears the late-withdraw indicator in every case. That a notice still under way at CLEAR_TRIP also cancels a
commit taken after it is the model's choice (log entry 17, DESIGN CHOICE). -/
def Obligations.CommitIsWithdrawnOrCancelled : Prop :=
  (∀ s : State, s.atWord 0x28#7 →
    (s.plan.staging = .validating →
      exec .withdraw s = .next (State.acted { s with
        plan := { s.plan with staging := .editing, lateWithdraw := false },
        validator := { s.validator with running := false } } 0x28#7 .ok)) ∧
    (s.plan.staging = .pending →
      exec .withdraw s = .next (State.acted { s with
        plan := { s.plan with staging := .editing, lateWithdraw := false } } 0x28#7 .ok)) ∧
    (s.plan.staging = .editing →
      exec .withdraw s = .next (State.acted { s with plan := { s.plan with lateWithdraw := false } } 0x28#7
        (if s.plan.lateWithdraw then .tooLate else .state))) ∧
    (s.plan.staging = .copying →
      exec .withdraw s = .next (State.acted { s with plan := { s.plan with lateWithdraw := false } } 0x28#7 .state))) ∧
  ∀ (s : State) (k : Nat), s.rstLow = false → s.transit.planNotices = k + 1 →
    (s.plan.staging = .validating ∨ s.plan.staging = .pending →
      exec .tripNoticePlanStore s = .next { s with
        plan := { s.plan with staging := .editing },
        validator := ⟨false, s.validator.junction, .cancelled .trip⟩,
        transit := { s.transit with planNotices := k } }) ∧
    (s.plan.staging = .editing ∨ s.plan.staging = .copying →
      exec .tripNoticePlanStore s = .next { s with transit := { s.transit with planNotices := k } })

/-! ### The frame timebase and the edge engine -/

/-- SET_TIMEBASE (R64): RUNNING unless STOPPED, then CONFIG; taken, the four settings; a changed prescaler restarts the
tick clock and sets every fall age to 0 (R130). -/
def Obligations.SetTimebaseTakesFourSettings : Prop :=
  ∀ s : State, s.atWord 0x29#7 →
    (s.timebase.state ≠ .stopped → exec .setTimebase s = .next (s.acted 0x29#7 .running)) ∧
    (s.timebase.state = .stopped →
      (s.port.p0.toNat ∉ [1, 2, 4, 8, 16, 32, 64, 128] ∨ 1 < s.port.p1.toNat ∨ s.port.p3.toNat = 0 ∨
          16 < s.port.p3.toNat →
        exec .setTimebase s = .next (s.acted 0x29#7 .config)) ∧
      (s.port.p0.toNat ∈ [1, 2, 4, 8, 16, 32, 64, 128] → s.port.p1.toNat ≤ 1 → 1 ≤ s.port.p3.toNat →
        s.port.p3.toNat ≤ 16 →
        (s.port.p0.toNat = s.timebase.prescaler →
          exec .setTimebase s = .next (State.acted { s with timebase := { s.timebase with
            mode := if s.port.p1.toNat = 0 then .free else .follow,
            timeout := s.port.p2.toNat, divider := s.port.p3.toNat } } 0x29#7 .ok)) ∧
        (s.port.p0.toNat ≠ s.timebase.prescaler →
          exec .setTimebase s = .next (State.acted { s with
            timebase := { s.timebase with
              prescaler := s.port.p0.toNat, mode := if s.port.p1.toNat = 0 then .free else .follow,
              timeout := s.port.p2.toNat, divider := s.port.p3.toNat,
              nextTick := s.environment.clk + s.port.p0.toNat },
            lines := tabulate fun i => { s.lines[i] with age := 0 } } 0x29#7 .ok))))

/-- START (R68, R69): TRIPPED while tripped, STATE unless STOPPED, TRIPPED while the clear notice has not reached the line
block; taken, the counters of the frame are 0 and a latched arrival is gone, and frame 0 begins at once in FREE mode or
with the first arrival in FOLLOW mode. -/
def Obligations.StartBeginsOrAwaitsFrameZero : Prop :=
  ∀ s : State, s.atWord 0x2A#7 →
    (s.trip.state = .tripped → exec .start s = .next (s.acted 0x2A#7 .tripped)) ∧
    (s.trip.state = .armed →
      (s.timebase.state ≠ .stopped → exec .start s = .next (s.acted 0x2A#7 .state)) ∧
      (s.timebase.state = .stopped → s.tripIndicator = true → exec .start s = .next (s.acted 0x2A#7 .tripped)) ∧
      (s.timebase.state = .stopped → s.tripIndicator = false → s.timebase.mode = .free →
        exec .start s = .next ((State.frameStart { s with timebase := { s.timebase with
          state := .running, frameNumber := 0#16, tick := 0, dividerCount := 0, timeoutCount := 0,
          arrivalLatch := false, syncOut := true } } 0#16).acted 0x2A#7 .ok)) ∧
      (s.timebase.state = .stopped → s.tripIndicator = false → s.timebase.mode = .follow →
        exec .start s = .next (State.acted { s with timebase := { s.timebase with
          state := .awaitSync, frameNumber := 0#16, tick := 0, dividerCount := 0, timeoutCount := 0,
          arrivalLatch := false } } 0x2A#7 .ok)))

/-- A frame start (R95 to R98): the engine walks the active plan from its first entry past offset 0 and hands on, in this
order, a start fall for each SCHEDULED line whose target is not ACTIVE, a start rise for each whose target is ACTIVE,
then the falls, the rises and the sample requests of the offset-0 entries due in the frame's parity, each in ascending
line order. -/
def Obligations.FrameStartHandsOnStartClaims : Prop :=
  ∀ (s : State) (frame : Word) (table : StartTable), s.plan.active.Lawful → s.plan.active.table = some table →
    ∃ (target : Fin 16 → Level) (claims : List Claim) (first fired : List Entry),
      (∀ i : Fin 16, target i = match table.level (if frame.toNat % 2 = 0 then .even else .odd) i with
        | .active => .active
        | .inactive => .inactive
        | .rest => s.lines[i].restLevel) ∧
      first = (s.plan.active.entries.filter fun e => e.offset = 0) ∧
      fired = (first.filter fun e => e.due (if frame.toNat % 2 = 0 then .even else .odd)) ∧
      claims =
        ((allLines.filter fun i => s.lines[i].mode = .scheduled ∧ target i ≠ .active).map fun i =>
            .startFall i (target i))
          ++ ((allLines.filter fun i => s.lines[i].mode = .scheduled ∧ target i = .active).map .startRise)
          ++ ((fired.filter fun e => e.action = .fall ∧ s.lines[e.line].mode = .scheduled).map fun e =>
            .fall e.line)
          ++ ((fired.filter fun e => e.action = .rise ∧ s.lines[e.line].mode = .scheduled).map fun e =>
            .rise e.line) ∧
      s.frameStart frame = { s with
        engine := ⟨.walking, s.plan.selector, if frame.toNat % 2 = 0 then .even else .odd, frame, first.length⟩,
        transit := { s.transit with
          claims := if claims = [] then s.transit.claims else s.transit.claims ++ [claims],
          tags := s.transit.tags ++ fired.filterMap fun e =>
            e.tag.map fun slot => ⟨slot, frame, 0, s.transit.steps + 1⟩,
          steps := s.transit.steps + 1 } }

/-- STOP (R70, R72): RUNNING becomes STOPPING; AWAIT_SYNC and HOLDING become STOPPED at once with the stop notice;
STOPPING is taken with no effect; STOPPED and HALTED refuse it with STATE. -/
def Obligations.StopEndsTheFrameOrStopsAtOnce : Prop :=
  ∀ s : State, s.atWord 0x2B#7 →
    (s.timebase.state = .running →
      exec .stop s = .next (State.acted { s with timebase := { s.timebase with state := .stopping } } 0x2B#7 .ok)) ∧
    (s.timebase.state = .awaitSync ∨ s.timebase.state = .holding → s.transit.claims = [] →
      exec .stop s = .next (s.stopNoticeTaken.acted 0x2B#7 .ok)) ∧
    (s.timebase.state = .stopping → exec .stop s = .next (s.acted 0x2B#7 .ok)) ∧
    (s.timebase.state = .stopped ∨ s.timebase.state = .halted →
      exec .stop s = .next (s.acted 0x2B#7 .state))

/-- A tick where the timebase stands still, with nothing under way: STOPPED and HALTED, AWAIT_SYNC without an arrival,
HOLDING without an arrival and with W = 0. With no rise waiting, fall ages advance and nothing else of the part moves
(R63, R74, R78, R79, R81, R109). With rises waiting and no wait at its limit, every wait advances by one and the head of
every waiting group is examined at the new ages (R125), or, where the free order says so, is owed its examination (R126,
R128, log entry 4); an examination owed is made before the next tick (the model's own, log entry 5). -/
def Obligations.TickWhereTheTimebaseStands : Prop :=
  (∀ s : State, s.rstLow = false → s.Quiet → s.Stands → exec .tick s = .next s.tickPassed) ∧
  (∀ s v : State, s.Quiet → s.TickBegun v → v = s.tickPassed) ∧
  (∀ s : State, s.rstLow = false → s.Settled → s.Stands → ∃ v : State, s.TickBegun v ∧ exec .tick s = .next v) ∧
  ∀ s : State, s.rstLow = false → s.transit.claims = [] → s.transit.syncExpiry = false →
    (∀ g : Fin 6, ∀ w ∈ s.groups[g].queue, w.wait < s.groups[g].limit) →
    exec .tick s = exec .tick (State.headsExamined { s with transit := { s.transit with headOwed := 0#6 } }
      fun g => s.transit.headOwed.getLsbD g.val)

/-- A tick below offset L - 1 without an arrival, in RUNNING or STOPPING (R74, R81, R90 to R92, R94), whether or not rises
wait: the tick begins with ages, waits and heads (R109, R125; late heads in a free order, log entries 4 and 5); then the
counter advances, the due entries at the new offset fire, the cursor passes all entries there, and FALL claims, RISE claims
and sample requests are handed on, each in ascending line order, claims for SCHEDULED lines alone. In FOLLOW mode a RUNNING
frame that reaches L - 1 becomes HOLDING. -/
def Obligations.TickWalksTheFrame : Prop :=
  ∀ s : State, s.rstLow = false → s.Settled → (s.timebase.state = .running ∨ s.timebase.state = .stopping) →
    (s.timebase.arrivalLatch = false ∨ s.timebase.mode = .free) →
    s.timebase.tick + 1 < s.plan.active.frameLength → (s.plan.bank s.engine.governing).Lawful →
    (∀ e ∈ (s.plan.bank s.engine.governing).entries.take s.engine.cursor, e.offset ≤ s.timebase.tick) →
    (∀ e ∈ (s.plan.bank s.engine.governing).entries.drop s.engine.cursor, s.timebase.tick < e.offset) →
    ∃ (v : State) (run fired : List Entry) (claims : List Claim) (holds : Bool),
      s.TickBegun v ∧
      run = ((s.plan.bank s.engine.governing).entries.filter fun e => e.offset = s.timebase.tick + 1) ∧
      fired = (run.filter fun e => e.due s.engine.parity) ∧
      claims =
        ((fired.filter fun e => e.action = .fall ∧ s.lines[e.line].mode = .scheduled).map fun e => .fall e.line)
          ++ ((fired.filter fun e => e.action = .rise ∧ s.lines[e.line].mode = .scheduled).map fun e =>
            .rise e.line) ∧
      holds = decide (s.timebase.state = .running ∧ s.timebase.mode = .follow ∧
        s.timebase.tick + 2 = s.plan.active.frameLength) ∧
      exec .tick s = .next { v with
        timebase := { v.timebase with
          tick := s.timebase.tick + 1,
          state := if holds then .holding else s.timebase.state,
          timeoutCount := if holds then 0 else s.timebase.timeoutCount },
        engine := { s.engine with cursor := s.engine.cursor + run.length },
        transit := { v.transit with
          claims := if claims = [] then [] else [claims],
          tags := s.transit.tags ++ fired.filterMap fun e =>
            e.tag.map fun slot => ⟨slot, s.engine.frameNumber, s.timebase.tick + 1, s.transit.steps + 1⟩,
          steps := s.transit.steps + 1 } }

/-- The tick after offset L - 1 without an arrival (R71, R74 to R77), whether or not rises wait: the tick begins with ages,
waits and heads (R109, R125; late heads in a free order, log entries 4 and 5), and then takes the boundary: the next frame
out of RUNNING in FREE mode, or STOPPED with the stop notice out of STOPPING in either mode. That the stop notice empties a
queue before an entry whose wait has come to its limit at this tick is abandoned is the model's choice (log entry 20,
DESIGN CHOICE). -/
def Obligations.TickTakesTheBoundary : Prop :=
  ∀ s : State, s.rstLow = false → s.Settled → s.timebase.tick + 1 = s.plan.active.frameLength →
    (s.timebase.arrivalLatch = false ∨ s.timebase.mode = .free) →
    ∃ v : State, s.TickBegun v ∧
      (s.timebase.state = .running → s.timebase.mode = .free → exec .tick s = .next v.frameEnded.nextFrame) ∧
      (s.timebase.state = .stopping → exec .tick s = .next v.frameEnded.stopNoticeTaken)

/-- SYNC_IN_ARRIVAL latches an edge in every state; the next tick in FOLLOW mode, begun with ages, waits and heads whether
or not rises wait (R109, R125; late heads in a free order, log entries 4 and 5), takes it (R78): as frame 0 in AWAIT_SYNC
(R79), as a boundary in RUNNING and STOPPING after counting the due entries beyond the counter as skipped (R80, R100),
and as a boundary without skips in HOLDING (R81). That the stop notice out of STOPPING comes before the expiry of a wait at
this tick is the model's choice (log entry 20, DESIGN CHOICE). -/
def Obligations.ArrivalsEndFrames : Prop :=
  (∀ s : State, s.rstLow = false →
    exec .syncInArrival s = .next { s with timebase := { s.timebase with arrivalLatch := true } }) ∧
  ∀ s : State, s.rstLow = false → s.Settled → s.timebase.arrivalLatch = true → s.timebase.mode = .follow →
    ∃ v : State, s.TickBegun v ∧
    (s.timebase.state = .awaitSync →
      exec .tick s = .next (State.frameStart { v with timebase := { v.timebase with
        state := .running, syncOut := true } } s.timebase.frameNumber)) ∧
    (s.timebase.state = .holding → exec .tick s = .next v.frameEnded.nextFrame) ∧
    ((∀ e ∈ (s.plan.bank s.engine.governing).entries.take s.engine.cursor, e.offset ≤ s.timebase.tick) →
      (∀ e ∈ (s.plan.bank s.engine.governing).entries.drop s.engine.cursor, s.timebase.tick < e.offset) →
      ∃ (n : Nat) (t : State),
        n = ((s.plan.bank s.engine.governing).entries.filter fun e =>
          s.timebase.tick < e.offset ∧ e.due s.engine.parity).length ∧
        t = State.withFlags { v with timebase := { v.timebase with
          skipCount := min (s.timebase.skipCount + n) 65535 } } (if n = 0 then 0x0000#13 else 0x1000#13) ∧
        (s.timebase.state = .running → exec .tick s = .next t.frameEnded.nextFrame) ∧
        (s.timebase.state = .stopping → exec .tick s = .next t.frameEnded.stopNoticeTaken))

/-- HOLDING with W at least 1: each tick without an arrival, begun with ages, waits and heads whether or not rises wait
(R109, R125; late heads in a free order, log entries 4 and 5), counts one more, and at W the sync timeout expires (R81). The
expiry sends SYNC_LOST when that source is enabled, and the hold goes on with the counter held at W and no further
SYNC_LOST; otherwise it is a boundary, counted as a sync miss with SYNCMISS (R82). A SYNC_TIMEOUT with
no expiry under way leaves the state as it is (the model's choice, log entry 8, DESIGN CHOICE). -/
def Obligations.HoldsCountToTheSyncTimeout : Prop :=
  (∀ s : State, s.rstLow = false → s.Settled → s.timebase.state = .holding →
    (s.timebase.arrivalLatch = false ∨ s.timebase.mode = .free) → s.timebase.timeoutCount < s.timebase.timeout →
    ∃ v : State, s.TickBegun v ∧ exec .tick s = .next { v with
      timebase := { v.timebase with timeoutCount := s.timebase.timeoutCount + 1 },
      transit := { v.transit with syncExpiry := decide (s.timebase.timeoutCount + 1 = s.timebase.timeout) } }) ∧
  (∀ s : State, s.rstLow = false → s.Settled → s.timebase.state = .holding →
    (s.timebase.arrivalLatch = false ∨ s.timebase.mode = .free) → s.timebase.timeout ≤ s.timebase.timeoutCount →
    (∃ v : State, s.TickBegun v ∧ exec .tick s = .next v) ∧ exec .syncTimeout s = .next s) ∧
  ∀ s : State, s.rstLow = false → s.timebase.state = .holding → s.transit.syncExpiry = true →
    (s.trip.syncLostEnable = true →
      exec .syncTimeout s = .next { s with transit := { s.transit with
        syncExpiry := false, sources := s.transit.sources ++ [⟨.syncLost, s.transit.steps⟩] } }) ∧
    (s.trip.syncLostEnable = false →
      exec .syncTimeout s = .next ((State.frameEnded { s with timebase := { s.timebase with
        missCount := min (s.timebase.missCount + 1) 255 } }).nextFrame.withFlags 0x0800#13))

/-! ### The line block and the interlock guard -/

/-- The guard's work on a queue. An examination (R125) lets the head rise and leave when its rise is clear (R122) and
otherwise changes nothing. DEFERRAL_EXPIRY (R126, R129) abandons the oldest entry whose wait has reached the limit: it
leaves without rising, the abandoned counter goes on, DEFER is set, and the head is examined (R125). The model's own part:
of several waits at the limit the oldest goes first (log entry 21, DESIGN CHOICE), and a DEFERRAL_EXPIRY with no wait at its
limit leaves the state as it is (log entry 8, DESIGN CHOICE). -/
def Obligations.GuardGrantsAndAbandons : Prop :=
  (∀ (s : State) (g : Fin 6), s.groups[g].queue = [] → s.examineHead g = s) ∧
  (∀ (s : State) (g : Fin 6) (w : Waiting) (rest : List Waiting), s.groups[g].queue = w :: rest →
    (s.RiseClear w.line → s.examineHead g =
      { s with
        lines := s.lines.set w.line { s.lines[w.line] with level := .active },
        groups := s.groups.set g { s.groups[g] with queue := rest } }) ∧
    (¬s.RiseClear w.line → s.examineHead g = s)) ∧
  ∀ (s : State) (g : Fin 6), s.rstLow = false →
    ((∀ w ∈ s.groups[g].queue, w.wait < s.groups[g].limit) → exec (.deferralExpiry g) s = .next s) ∧
    ∀ (before after : List Waiting) (w : Waiting), s.groups[g].queue = before ++ w :: after →
      (∀ v ∈ before, v.wait < s.groups[g].limit) → s.groups[g].limit ≤ w.wait →
      ∃ t : State, t = State.withFlags { s with groups := s.groups.set g { s.groups[g] with
          queue := before ++ after, abandoned := min (s.groups[g].abandoned + 1) 255 } } 0x0100#13 ∧
        exec (.deferralExpiry g) s = .next (t.examineHead g)

/-- ENGINE_CLAIMS takes the claims of one engine step in the order handed, each judged before the next (R111); a claim for
a line that is not SCHEDULED, and every claim while the trip indicator is set, changes nothing. A FALL claim makes its
line INACTIVE and a start fall gives it the target: a line that was ACTIVE falls, its fall age restarts (R109) and the
head of its group is examined (R125); a waiting rise of the line is removed first, without a counter moving (R127), and the
head of the queue it left is examined (R125). ENGINE_CLAIMS with no claims under way leaves the state as it is (the
model's choice, log entry 8, DESIGN CHOICE). A line both waiting and ACTIVE is left out: QueuesLawful excludes it. -/
def Obligations.ClaimsAreTakenInOrderAndLinesFall : Prop :=
  (∀ s : State, s.rstLow = false →
    (s.transit.claims = [] → exec .engineClaims s = .next s) ∧
    (∀ rest, s.transit.claims = [] :: rest →
      exec .engineClaims s = .next { s with transit := { s.transit with claims := rest } }) ∧
    ∀ (c : Claim) (more : List Claim) (rest : List (List Claim)), s.transit.claims = (c :: more) :: rest →
      (s.tripIndicator = true ∨ s.lines[c.line].mode ≠ .scheduled →
        exec .engineClaims { s with transit := { s.transit with claims := [c] :: rest } } =
          .next { s with transit := { s.transit with claims := rest } }) ∧
      ∃ t : State,
        exec .engineClaims { s with transit := { s.transit with claims := [c] :: rest } } = .next t ∧
        exec .engineClaims s = exec .engineClaims { t with transit := { t.transit with claims := more :: rest } }) ∧
  ∀ (s u : State) (c : Claim) (x : Fin 16) (target : Level) (rest : List (List Claim)), s.rstLow = false →
    s.transit.claims = [c] :: rest → u = { s with transit := { s.transit with claims := rest } } →
    (c = .fall x ∧ target = .inactive) ∨ (c = .startFall x target ∧ target ≠ .active) →
    s.tripIndicator = false → s.lines[x].mode = .scheduled →
    ((∀ (g : Fin 6), s.lines[x].group = some g → ∀ w ∈ s.groups[g].queue, w.line ≠ x) →
      (s.lines[x].level ≠ .active →
        exec .engineClaims s = .next { u with lines := u.lines.set x { s.lines[x] with level := target } }) ∧
      (s.lines[x].level = .active →
        exec .engineClaims s = .next (State.examineFor
          { u with lines := u.lines.set x { s.lines[x] with level := target, age := 0 } } x))) ∧
    ∀ (g : Fin 6), s.lines[x].group = some g → (∃ w ∈ s.groups[g].queue, w.line = x) → s.lines[x].level ≠ .active →
      ∃ q : State,
        q = State.examineHead { u with groups := u.groups.set g { s.groups[g] with
          queue := s.groups[g].queue.filter fun w => w.line ≠ x } } g ∧
        exec .engineClaims s = .next { q with lines := q.lines.set x { s.lines[x] with level := target } }

/-- A RISE claim or start rise of a SCHEDULED line with the trip indicator clear (R111, R123, R124): an ACTIVE line stays;
an ungrouped line rises; a waiting line keeps its place; a member rises when its group's queue is empty and its rise is
clear; otherwise it joins the tail under DEFER with the deferred counter one greater (at limit 0 it is abandoned in the
same step), or sends an INTERLOCK source under TRIP. A start rise removes a waiting rise of its line first (R127), with
the head examined (R125), and is then judged as a RISE claim of the state so reached. -/
def Obligations.RisesAreJudgedByTheGuard : Prop :=
  (∀ (s u : State) (c : Claim) (x : Fin 16) (rest : List (List Claim)), s.rstLow = false →
    s.transit.claims = [c] :: rest → u = { s with transit := { s.transit with claims := rest } } →
    c = .rise x ∨ (c = .startRise x ∧ ∀ g : Fin 6, s.lines[x].group = some g →
      ∀ w ∈ s.groups[g].queue, w.line ≠ x) →
    s.tripIndicator = false → s.lines[x].mode = .scheduled →
    (s.lines[x].level = .active → exec .engineClaims s = .next u) ∧
    (s.lines[x].level ≠ .active →
      (s.lines[x].group = none →
        exec .engineClaims s = .next { u with lines := u.lines.set x { s.lines[x] with level := .active } }) ∧
      ∀ g : Fin 6, s.lines[x].group = some g →
        ((∃ w ∈ s.groups[g].queue, w.line = x) → exec .engineClaims s = .next u) ∧
        (s.groups[g].queue = [] → s.RiseClear x →
          exec .engineClaims s = .next { u with lines := u.lines.set x { s.lines[x] with level := .active } }) ∧
        ((∀ w ∈ s.groups[g].queue, w.line ≠ x) → ¬(s.groups[g].queue = [] ∧ s.RiseClear x) →
          (s.groups[g].policy = .defer → 0 < s.groups[g].limit →
            exec .engineClaims s = .next { u with groups := u.groups.set g { s.groups[g] with
              queue := s.groups[g].queue ++ [⟨x, 0⟩], deferred := min (s.groups[g].deferred + 1) 255 } }) ∧
          (s.groups[g].policy = .defer → s.groups[g].limit = 0 →
            exec .engineClaims s = .next (State.withFlags { u with groups := u.groups.set g { s.groups[g] with
              deferred := min (s.groups[g].deferred + 1) 255,
              abandoned := min (s.groups[g].abandoned + 1) 255 } } 0x0100#13)) ∧
          (s.groups[g].policy = .trip →
            exec .engineClaims s = .next { u with transit := { u.transit with
              sources := s.transit.sources ++ [⟨.interlock g, s.transit.steps⟩] } })))) ∧
  ∀ (s : State) (x : Fin 16) (g : Fin 6) (rest : List (List Claim)), s.rstLow = false →
    s.transit.claims = [.startRise x] :: rest → s.tripIndicator = false → s.lines[x].mode = .scheduled →
    s.lines[x].group = some g → (∃ w ∈ s.groups[g].queue, w.line = x) →
    ∃ q : State,
      q = State.examineHead { s with groups := s.groups.set g { s.groups[g] with
        queue := s.groups[g].queue.filter fun w => w.line ≠ x } } g ∧
      exec .engineClaims s =
        exec .engineClaims { q with transit := { q.transit with claims := [.rise x] :: rest } }

/-- SET_LINE_CONFIG (R112, R113): TRIPPED, RUNNING, CONFIG in that order; taken, the polarity and both levels, and a line in
REST or SCHEDULED mode takes the new rest level at once, a fall restarting its fall age. The codes of polarity and level
are those of R112. -/
def Obligations.SetLineConfigWritesTheRecord : Prop :=
  ∀ s : State, s.atWord 0x2C#7 →
    (s.trip.state = .tripped ∨ s.tripIndicator = true →
      exec .setLineConfig s = .next (s.acted 0x2C#7 .tripped)) ∧
    (s.trip.state = .armed → s.tripIndicator = false →
      (s.timebase.state ≠ .stopped → exec .setLineConfig s = .next (s.acted 0x2C#7 .running)) ∧
      (s.timebase.state = .stopped →
        (15 < s.port.p0.toNat ∨ 1 < s.port.p1.toNat ∨ 2 < s.port.p2.toNat ∨ 2 < s.port.p3.toNat →
          exec .setLineConfig s = .next (s.acted 0x2C#7 .config)) ∧
        ∀ (i : Fin 16) (polarity : Polarity) (rest safe : Level), s.port.p0.toNat = i.val →
          s.port.p1.toNat = (match polarity with
            | .activeHigh => 0 | .activeLow => 1) →
          s.port.p2.toNat = (match rest with
            | .inactive => 0 | .active => 1 | .released => 2) →
          s.port.p3.toNat = (match safe with
            | .inactive => 0 | .active => 1 | .released => 2) →
          (s.lines[i].group ≠ none → rest ≠ .inactive ∨ safe = .active →
            exec .setLineConfig s = .next (s.acted 0x2C#7 .config)) ∧
          ((s.lines[i].group ≠ none → rest = .inactive ∧ safe ≠ .active) →
            (s.lines[i].mode = .forcedActive ∨ s.lines[i].mode = .forcedInactive →
              exec .setLineConfig s = .next (State.acted { s with lines := s.lines.set i { s.lines[i] with
                polarity := polarity, restLevel := rest, safeLevel := safe } } 0x2C#7 .ok)) ∧
            (s.lines[i].mode = .rest ∨ s.lines[i].mode = .scheduled → ∃ t : State,
              t = { s with lines := s.lines.set i { s.lines[i] with
                polarity := polarity, restLevel := rest, safeLevel := safe, level := rest,
                age := if s.lines[i].level = .active ∧ rest ≠ .active then 0 else s.lines[i].age } } ∧
              exec .setLineConfig s = .next ((if s.lines[i].level = .active ∧ rest ≠ .active
                then t.examineFor i else t).acted 0x2C#7 .ok)))))

/-- SET_LINE_MODE (R114 to R116): TRIPPED, CONFIG, INTERLOCK in that order. REST and FORCED_INACTIVE move the line to its
rest level or to INACTIVE and remove a waiting rise of it; SCHEDULED takes the rest level only while the timebase is
STOPPED or AWAIT_SYNC; FORCED_ACTIVE is taken for an ACTIVE line and for one whose rise is clear, and refused otherwise. A
fall restarts the fall age and has the group's head examined (R109, R125). -/
def Obligations.SetLineModeMovesTheLine : Prop :=
  ∀ s : State, s.atWord 0x2D#7 →
    (s.trip.state = .tripped ∨ s.tripIndicator = true → exec .setLineMode s = .next (s.acted 0x2D#7 .tripped)) ∧
    (s.trip.state = .armed → s.tripIndicator = false →
      (15 < s.port.p0.toNat ∨ 3 < s.port.p1.toNat → exec .setLineMode s = .next (s.acted 0x2D#7 .config)) ∧
      ∀ (i : Fin 16) (mode : LineMode), s.port.p0.toNat = i.val →
        s.port.p1.toNat = (match mode with
          | .rest => 0 | .scheduled => 1 | .forcedActive => 2 | .forcedInactive => 3) →
        (∀ level : Level, (mode = .rest ∧ level = s.lines[i].restLevel) ∨ (mode = .forcedInactive ∧ level = .inactive) →
          ((∀ g : Fin 6, s.lines[i].group = some g → ∀ w ∈ s.groups[g].queue, w.line ≠ i) → ∃ t : State,
            t = { s with lines := s.lines.set i { s.lines[i] with
              mode := mode, level := level,
              age := if s.lines[i].level = .active ∧ level ≠ .active then 0 else s.lines[i].age } } ∧
            exec .setLineMode s = .next ((if s.lines[i].level = .active ∧ level ≠ .active
              then t.examineFor i else t).acted 0x2D#7 .ok)) ∧
          ∀ g : Fin 6, s.lines[i].group = some g → (∃ w ∈ s.groups[g].queue, w.line = i) →
            s.lines[i].level ≠ .active → ∃ q : State,
              q = State.examineHead { s with
                lines := s.lines.set i { s.lines[i] with mode := mode },
                groups := s.groups.set g { s.groups[g] with
                  queue := s.groups[g].queue.filter fun w => w.line ≠ i } } g ∧
              exec .setLineMode s = .next (State.acted { q with lines := q.lines.set i { s.lines[i] with
                mode := mode, level := level } } 0x2D#7 .ok)) ∧
        (mode = .scheduled → s.timebase.state = .stopped ∨ s.timebase.state = .awaitSync → ∃ t : State,
          t = { s with lines := s.lines.set i { s.lines[i] with
            mode := .scheduled, level := s.lines[i].restLevel,
            age := if s.lines[i].level = .active ∧ s.lines[i].restLevel ≠ .active then 0
              else s.lines[i].age } } ∧
          exec .setLineMode s = .next ((if s.lines[i].level = .active ∧ s.lines[i].restLevel ≠ .active
            then t.examineFor i else t).acted 0x2D#7 .ok)) ∧
        (mode = .scheduled → s.timebase.state ≠ .stopped → s.timebase.state ≠ .awaitSync →
          exec .setLineMode s = .next (State.acted { s with lines := s.lines.set i { s.lines[i] with
            mode := .scheduled } } 0x2D#7 .ok)) ∧
        (mode = .forcedActive →
          (s.lines[i].level = .active →
            exec .setLineMode s = .next (State.acted { s with lines := s.lines.set i { s.lines[i] with
              mode := .forcedActive } } 0x2D#7 .ok)) ∧
          (s.lines[i].level ≠ .active → ¬s.RiseClear i →
            exec .setLineMode s = .next (s.acted 0x2D#7 .interlock)) ∧
          (s.lines[i].level ≠ .active → s.lines[i].group = none →
            exec .setLineMode s = .next (State.acted { s with lines := s.lines.set i { s.lines[i] with
              mode := .forcedActive, level := .active } } 0x2D#7 .ok)) ∧
          ∀ g : Fin 6, s.lines[i].level ≠ .active → s.lines[i].group = some g → s.RiseClear i → ∃ p : State,
            p = { s with
              lines := s.lines.set i { s.lines[i] with mode := .forcedActive, level := .active },
              groups := s.groups.set g { s.groups[g] with
                queue := s.groups[g].queue.filter fun w => w.line ≠ i } } ∧
            ((∃ w ∈ s.groups[g].queue, w.line = i) →
              exec .setLineMode s = .next ((p.examineHead g).acted 0x2D#7 .ok)) ∧
            ((∀ w ∈ s.groups[g].queue, w.line ≠ i) → exec .setLineMode s = .next (p.acted 0x2D#7 .ok))))

/-- SET_GROUP (R118, R119): RUNNING, BUSY, CONFIG, INTERLOCK in that order; taken, gap, policy and limit, the member set
written in the lines' group fields, the queue emptied, and nothing else: counters, fall ages, levels and modes stay. That
SET_GROUP is taken in STOPPED while the trip indicator is still set is the model's own (R132 calls it refused; log entry 18,
DEDUCED). -/
def Obligations.SetGroupWritesTheGroup : Prop :=
  ∀ s : State, s.atWord 0x2E#7 →
    (s.timebase.state ≠ .stopped → exec .setGroup s = .next (s.acted 0x2E#7 .running)) ∧
    (s.timebase.state = .stopped →
      (s.plan.staging = .validating ∨ s.plan.staging = .pending →
        exec .setGroup s = .next (s.acted 0x2E#7 .busy)) ∧
      (s.plan.staging = .editing ∨ s.plan.staging = .copying →
        (5 < s.port.p0.toNat % 256 ∨ 1 < s.port.p0.toNat / 256 →
          exec .setGroup s = .next (s.acted 0x2E#7 .config)) ∧
        ∀ (g : Fin 6) (policy : Policy) (proposed : List (Fin 16)),
          s.port.p0.toNat = g.val + 256 * (match policy with
            | .defer => 0 | .trip => 1) → proposed.Nodup →
          (∀ i : Fin 16, i ∈ proposed ↔ s.port.p1.getLsbD i.val = true) →
          (1023 < s.port.p2.toNat ∨ 1023 < s.port.p3.toNat ∨ proposed.length = 1 ∨ 4 < proposed.length ∨
              (∃ i ∈ proposed, (s.lines[i].group ≠ none ∧ s.lines[i].group ≠ some g) ∨
                s.lines[i].restLevel ≠ .inactive ∨ s.lines[i].safeLevel = .active) →
            exec .setGroup s = .next (s.acted 0x2E#7 .config)) ∧
          (s.port.p2.toNat ≤ 1023 → s.port.p3.toNat ≤ 1023 → proposed.length ≠ 1 → proposed.length ≤ 4 →
            (∀ i ∈ proposed, (s.lines[i].group = none ∨ s.lines[i].group = some g) ∧
              s.lines[i].restLevel = .inactive ∧ s.lines[i].safeLevel ≠ .active) →
            ((∃ i ∈ proposed, ∃ j ∈ proposed, i ≠ j ∧ s.lines[i].level = .active ∧ s.lines[j].level = .active) →
              exec .setGroup s = .next (s.acted 0x2E#7 .interlock)) ∧
            ((∀ i ∈ proposed, ∀ j ∈ proposed, i ≠ j →
                ¬(s.lines[i].level = .active ∧ s.lines[j].level = .active)) →
              exec .setGroup s = .next (State.acted { s with
                groups := s.groups.set g { s.groups[g] with
                  gap := s.port.p2.toNat, policy := policy, limit := s.port.p3.toNat, queue := [] },
                lines := tabulate fun i => { s.lines[i] with
                  group := if s.port.p1.getLsbD i.val then some g
                    else if s.lines[i].group = some g then none else s.lines[i].group } } 0x2E#7 .ok)))))

/-- READ_LINE and READ_GROUP (R120, R121): refused with CONFIG for a number that names nothing, taken in every other state;
P0 to P3 are written in one step with the fields in their bytes, and nothing of the line block changes. -/
def Obligations.LineAndGroupReadBacks : Prop :=
  (∀ s : State, s.atWord 0x3C#7 →
    (15 < s.port.p0.toNat → exec .readLine s = .next (s.acted 0x3C#7 .config)) ∧
    ∀ i : Fin 16, s.port.p0.toNat = i.val →
      exec .readLine s = .next ((s.withParams (BitVec.ofNat 16 s.lines[i].age)
        (BitVec.ofNat 16 ((match s.lines[i].mode with
            | .rest => 0 | .scheduled => 1 | .forcedActive => 2 | .forcedInactive => 3)
          + 256 * (match s.lines[i].level with
            | .inactive => 0 | .active => 1 | .released => 2)))
        (BitVec.ofNat 16 ((match s.lines[i].polarity with
            | .activeHigh => 0 | .activeLow => 1)
          + 256 * (match s.lines[i].group with
            | some g => g.val | none => 255)))
        (BitVec.ofNat 16 ((match s.lines[i].restLevel with
            | .inactive => 0 | .active => 1 | .released => 2)
          + 256 * (match s.lines[i].safeLevel with
            | .inactive => 0 | .active => 1 | .released => 2)))).acted 0x3C#7 .ok)) ∧
  ∀ s : State, s.atWord 0x2F#7 →
    (5 < s.port.p0.toNat ∨ 1 < s.port.p1.toNat → exec .readGroup s = .next (s.acted 0x2F#7 .config)) ∧
    ∀ g : Fin 6, s.port.p0.toNat = g.val →
      (s.port.p1 = 0#16 → ∃ members : Word,
        (∀ i : Fin 16, members.getLsbD i.val = true ↔ s.lines[i].group = some g) ∧
        exec .readGroup s = .next ((s.withParams members (BitVec.ofNat 16 s.groups[g].gap)
          (BitVec.ofNat 16 s.groups[g].limit) (BitVec.ofNat 16 (match s.groups[g].policy with
            | .defer => 0 | .trip => 1))).acted 0x2F#7 .ok)) ∧
      (s.port.p1 = 1#16 → ∃ lineAt : Nat → Nat,
        (∀ k : Nat, lineAt k = match s.groups[g].queue[k]? with
          | some w => w.line.val
          | none => 255) ∧
        exec .readGroup s = .next ((s.withParams (BitVec.ofNat 16 s.groups[g].queue.length)
          (BitVec.ofNat 16 (lineAt 0 + 256 * lineAt 1)) (BitVec.ofNat 16 (lineAt 2 + 256 * lineAt 3))
          (BitVec.ofNat 16 (match s.groups[g].queue with
            | w :: _ => w.wait
            | [] => 0))).acted 0x2F#7 .ok))

/-- The clear notice at its two receivers, each an event of its own (R184): at the timebase HALTED becomes STOPPED with the
sync timeout counter at 0, and any other state stays (R85); at the line block the trip indicator goes and every line takes
its rest level, a fall restarting its fall age (R133). The model's own part: without a notice under way nothing happens
(log entry 8, DESIGN CHOICE), and the claims still under way to the line block are dropped (log entry 5, DEDUCED). -/
def Obligations.ClearNoticeIsTakenByEachBlock : Prop :=
  (∀ s : State, s.rstLow = false →
    (s.transit.clearTimebase = false → exec .clearNoticeTimebase s = .next s) ∧
    (s.transit.clearTimebase = true → s.timebase.state = .halted →
      exec .clearNoticeTimebase s = .next { s with
        timebase := { s.timebase with state := .stopped, timeoutCount := 0 },
        transit := { s.transit with clearTimebase := false } }) ∧
    (s.transit.clearTimebase = true → s.timebase.state ≠ .halted →
      exec .clearNoticeTimebase s = .next { s with transit := { s.transit with clearTimebase := false } })) ∧
  ∀ s : State, s.rstLow = false →
    (s.transit.clearLines = false → exec .clearNoticeLineBlock s = .next s) ∧
    (s.transit.clearLines = true → exec .clearNoticeLineBlock s = .next { s with
      tripIndicator := false,
      lines := tabulate fun i => { s.lines[i] with
        level := s.lines[i].restLevel,
        age := if s.lines[i].level = .active ∧ s.lines[i].restLevel ≠ .active then 0 else s.lines[i].age },
      transit := { s.transit with clearLines := false, claims := [] } })

/-! ### The sampling path -/

/-- SET_SLOT writes a slot's channel, window and trip-on-limit and keeps its drop counter, or is refused with CONFIG (R137,
R138); READ_SLOT writes P0 to P3 in the layout that SET_SLOT reads (R139), so that a slot read back can be written again
unchanged. -/
def Obligations.SlotsAreWrittenAndReadBack : Prop :=
  (∀ s : State, s.atWord 0x30#7 →
    (7 < s.port.p0.toNat % 256 ∨ 8 < s.port.p0.toNat / 256 ∨ 1 < s.port.p1.toNat % 256 ∨ 1 < s.port.p1.toNat / 256 ∨
        (s.port.p1.toNat % 256 = 1 ∧
          (4095 < s.port.p2.toNat ∨ 4095 < s.port.p3.toNat ∨ s.port.p3.toNat < s.port.p2.toNat)) →
      exec .setSlot s = .next (s.acted 0x30#7 .config)) ∧
    ∀ (slot : Fin 8) (channel : Fin 9) (present tripOnLimit : Bool),
      s.port.p0.toNat = slot.val + 256 * channel.val →
      s.port.p1.toNat = (if present then 1 else 0) + 256 * (if tripOnLimit then 1 else 0) →
      (present = true → s.port.p2.toNat ≤ s.port.p3.toNat ∧ s.port.p3.toNat ≤ 4095) →
      exec .setSlot s = .next (State.acted { s with sampler := { s.sampler with
        slots := s.sampler.slots.set slot ⟨channel,
          if present then some ⟨s.port.p2.toNat, s.port.p3.toNat⟩ else none, tripOnLimit,
          s.sampler.slots[slot].drops⟩ } } 0x30#7 .ok)) ∧
  ∀ s : State, s.atWord 0x3D#7 →
    (7 < s.port.p0.toNat % 256 → exec .readSlot s = .next (s.acted 0x3D#7 .config)) ∧
    ∀ slot : Fin 8, s.port.p0.toNat % 256 = slot.val → ∃ t : State,
      t = s.withParams (BitVec.ofNat 16 (slot.val + 256 * s.sampler.slots[slot].channel.val))
        (BitVec.ofNat 16 ((if s.sampler.slots[slot].window = none then 0 else 1)
          + 256 * (if s.sampler.slots[slot].tripOnLimit then 1 else 0)))
        (BitVec.ofNat 16 (match s.sampler.slots[slot].window with
          | some w => w.low
          | none => 0))
        (BitVec.ofNat 16 (match s.sampler.slots[slot].window with
          | some w => w.high
          | none => 0)) ∧
      exec .readSlot s = .next (t.acted 0x3D#7 .ok) ∧
      ∀ u : State, u = { t with port := { t.port with phase := .writing 0x30#7 } } →
        (∀ w : Window, s.sampler.slots[slot].window = some w → w.low ≤ w.high ∧ w.high ≤ 4095) →
        exec .setSlot u = .next (u.acted 0x30#7 .ok)

/-- SAMPLE_NOW (R141) and SAMPLE_REQUEST (R140, R143): a request that finds fewer than 4 waiting is placed with its slot's
present channel (R142); one that finds 4 is refused with FULL, or, from an edge tag, dropped with its slot's drop counter
and DROP. A SAMPLE_REQUEST that the engine has not handed on leaves the state as it is (the model's choice, log entry 8,
DESIGN CHOICE). -/
def Obligations.SampleRequestsArePlacedOrDropped : Prop :=
  (∀ s : State, s.atWord 0x31#7 →
    (7 < s.port.p0.toNat % 256 → exec .sampleNow s = .next (s.acted 0x31#7 .config)) ∧
    ∀ slot : Fin 8, s.port.p0.toNat % 256 = slot.val →
      (4 ≤ s.sampler.queue.length → exec .sampleNow s = .next (s.acted 0x31#7 .full)) ∧
      (s.sampler.queue.length < 4 → (s.converter.state = .idle → s.sampler.queue = []) →
        exec .sampleNow s = .next ((s.requestPlaced slot .software).acted 0x31#7 .ok))) ∧
  ∀ s : State, s.rstLow = false →
    (s.transit.tags = [] → exec .sampleRequest s = .next s) ∧
    ∀ (tag : SampleTag) (rest : List SampleTag) (u : State), s.transit.tags = tag :: rest →
      u = { s with transit := { s.transit with tags := rest } } →
      (4 ≤ s.sampler.queue.length →
        exec .sampleRequest s = .next (State.withFlags { u with sampler := { s.sampler with
          slots := s.sampler.slots.set tag.slot { s.sampler.slots[tag.slot] with
            drops := min (s.sampler.slots[tag.slot].drops + 1) 255 } } } 0x0080#13)) ∧
      (s.sampler.queue.length < 4 → (s.converter.state = .idle → s.sampler.queue = []) →
        exec .sampleRequest s = .next (u.requestPlaced tag.slot (.edge tag.frame tag.tick)))

/-- CONVERSION_COMPLETION (R147): the value is raw plus trim minus 16 clamped to 0 to 4095; the record joins the ring, marked
against its slot's present window (R164), a full ring losing its head to the lost counter and marking GAP (R163); LIMIT and
the LIMIT source (R165), RESULTS (R169). Then the head of the queue is taken with its wait (R146), or the converter becomes
IDLE; out of CAL_PENDING the calibration begins instead (R151). The model's own part: a CONVERSION_COMPLETION while IDLE
leaves the state as it is (log entry 8, DESIGN CHOICE), and the sampled channel's next value is free (log entry 3). -/
def Obligations.ConversionsEndInTheRing : Prop :=
  (∀ s : State, s.sampler.queue = [] → s.serveQueue = { s with converter := { s.converter with state := .idle } }) ∧
  (∀ (s : State) (r : Request) (rest : List Request), s.sampler.queue = r :: rest →
    s.serveQueue = State.afterSample { s with
      sampler := { s.sampler with queue := rest },
      converter := { s.converter with
        state := .converting ⟨r, s.environment.analog[r.channel],
          min ((s.environment.clk - r.entry) / s.converter.divider) 1023⟩,
        since := s.environment.clk } } r.channel) ∧
  ∀ s : State, s.rstLow = false →
    (s.converter.state = .idle → exec .conversionCompletion s = .next s) ∧
    ∀ (c : InConversion) (slot : Slot), slot = s.sampler.slots[c.request.slot] →
      s.converter.state = .converting c ∨ s.converter.state = .calPending c →
      ∃ (value : Nat) (mark : LimitMark) (records : List Result) (t : State),
        (value : Int) = max 0 (min 4095 ((c.raw.toNat : Int) + s.converter.trim - 16)) ∧
        (mark = .below ↔ ∃ w, slot.window = some w ∧ value < w.low) ∧
        (mark = .above ↔ ∃ w, slot.window = some w ∧ w.low ≤ value ∧ w.high < value) ∧
        records = (if s.ring.records.length < 16 then s.ring.records else s.ring.records.tail)
          ++ [⟨c.request.slot, c.request.channel, c.request.origin, value, c.wait, mark,
            decide (16 ≤ s.ring.records.length)⟩] ∧
        t = State.withFlags { s with
          ring := { s.ring with
            records := records,
            lost := if s.ring.records.length < 16 then s.ring.lost else min (s.ring.lost + 1) 255 },
          transit := { s.transit with
            sources := if mark ≠ .neither ∧ slot.tripOnLimit = true then
                s.transit.sources ++ [⟨.limit c.request.slot, s.transit.steps⟩]
              else s.transit.sources } }
          ((if mark = .neither then 0x0000#13 else 0x0040#13)
            ||| (if s.ring.watermark ≤ records.length then 0x0020#13 else 0x0000#13)) ∧
        (s.converter.state = .converting c → exec .conversionCompletion s = .next t.serveQueue) ∧
        (s.converter.state = .calPending c →
          exec .conversionCompletion s = .next (State.afterSample { t with converter := { s.converter with
            state := .calibrating 0 4 s.environment.analog[(8 : Fin 9)], since := s.environment.clk } } 8))

/-- SET_CONVERTER (R149), CALIBRATE (R150) and CANCEL_CAL (R154) by the converter state they find. A cancelled calibration
leaves the trim as it was and reports CANCELLED, without CALDONE. The model's own part: no flag reports a CANCEL_CAL taken in
CAL_PENDING later (R154 and R159 against R196; log entry 24, DEDUCED), and MREF's next value is free (log entry 3). -/
def Obligations.ConverterActionsByState : Prop :=
  (∀ s : State, s.atWord 0x32#7 →
    (s.port.p0.toNat ∉ [2, 4, 8, 16] → exec .setConverter s = .next (s.acted 0x32#7 .config)) ∧
    (s.port.p0.toNat ∈ [2, 4, 8, 16] → s.converter.state ≠ .idle →
      exec .setConverter s = .next (s.acted 0x32#7 .busy)) ∧
    (s.port.p0.toNat ∈ [2, 4, 8, 16] → s.converter.state = .idle →
      exec .setConverter s = .next (State.acted { s with
        converter := { s.converter with divider := s.port.p0.toNat } } 0x32#7 .ok))) ∧
  (∀ s : State, s.atWord 0x33#7 →
    (s.converter.state = .idle →
      exec .calibrate s = .next ((State.afterSample { s with converter := { s.converter with
        state := .calibrating 0 4 s.environment.analog[(8 : Fin 9)], since := s.environment.clk } } 8).acted
          0x33#7 .ok)) ∧
    (∀ c, s.converter.state = .converting c →
      exec .calibrate s = .next (State.acted { s with
        converter := { s.converter with state := .calPending c } } 0x33#7 .ok)) ∧
    ((∃ c, s.converter.state = .calPending c) ∨ (∃ kept bit raw, s.converter.state = .calibrating kept bit raw) →
      exec .calibrate s = .next (s.acted 0x33#7 .busy))) ∧
  ∀ s : State, s.atWord 0x34#7 →
    (∀ kept bit raw, s.converter.state = .calibrating kept bit raw →
      exec .cancelCal s = .next ((State.serveQueue { s with
        converter := { s.converter with report := .cancelled } }).acted 0x34#7 .ok)) ∧
    (∀ c, s.converter.state = .calPending c →
      exec .cancelCal s = .next (State.acted { s with
        converter := { s.converter with state := .converting c, report := .cancelled } } 0x34#7 .ok)) ∧
    (s.converter.state = .idle ∨ (∃ c, s.converter.state = .converting c) →
      exec .cancelCal s = .next (s.acted 0x34#7 .state))

/-- CALIBRATION_CONVERSION (R151, R152): kept becomes the trial when raw + trial - 16 is at most 2048; above bit 0 the next
trial samples MREF afresh; at bit 0 kept becomes the trim, the report is AT_LIMIT for 0 and 31 and DONE otherwise, CALDONE
is set, and the queue is served. A CALIBRATION_CONVERSION while IDLE leaves the state as it is (the model's choice, log
entry 8, DESIGN CHOICE), and MREF's next value is free (log entry 3). -/
def Obligations.CalibrationTriesEachBit : Prop :=
  ∀ s : State, s.rstLow = false →
    (s.converter.state = .idle → exec .calibrationConversion s = .next s) ∧
    ∀ (kept bit : Nat) (raw : BitVec 12), s.converter.state = .calibrating kept bit raw → ∃ next : Nat,
      ((raw.toNat : Int) + (kept + 2 ^ bit) - 16 ≤ 2048 → next = kept + 2 ^ bit) ∧
      (2048 < (raw.toNat : Int) + (kept + 2 ^ bit) - 16 → next = kept) ∧
      (∀ b : Nat, bit = b + 1 →
        exec .calibrationConversion s = .next (State.afterSample { s with converter := { s.converter with
          state := .calibrating next b s.environment.analog[(8 : Fin 9)], since := s.environment.clk } } 8)) ∧
      (bit = 0 →
        exec .calibrationConversion s = .next ((State.withFlags { s with converter := { s.converter with
          trim := next, report := if next = 0 ∨ next = 31 then .atLimit else .done } } 0x0400#13).serveQueue))

/-- A calibration finds the trim: when each of its five conversions of MREF reads between `low` and `high`, the new trim
lies between the greatest trim that brings a reading of `high` to at most 2048 and the one that does so for `low`, within
0 to 31. A steady reading r therefore gets the trim 2064 - r, or the end of the range (R151, R152). -/
def Obligations.CalibrationFindsTheTrim : Prop :=
  ∀ (run : Nat → State) (low high : Nat),
    (∃ raw, (run 0).converter.state = .calibrating 0 4 raw) →
    (∀ k : Nat, k < 5 → (run k).rstLow = false ∧ exec .calibrationConversion (run k) = .next (run (k + 1)) ∧
      ∀ kept bit raw, (run k).converter.state = .calibrating kept bit raw → low ≤ raw.toNat ∧ raw.toNat ≤ high) →
    min 31 (2064 - high) ≤ (run 5).converter.trim ∧ (run 5).converter.trim ≤ min 31 (2064 - low) ∧
    (run 5).converter.report = (if (run 5).converter.trim = 0 ∨ (run 5).converter.trim = 31 then .atLimit else .done) ∧
    (run 5).flag .caldone = true

/-- The trip notice at the sampling path (R155): the conversion or calibration in flight is abandoned with no record, a
calibration in flight or pending is reported CANCELLED, the queue is emptied and the converter is IDLE; trim, divider,
slots and drop counters stay. After an INTERLOCK trip the sample requests of the engine step in which the source arose are
taken first, in their order, and those of every other step stay under way and may arrive after the notice (R104, R155;
the steps are told apart by the model's own numbers, log entry 2). A notice that was not sent changes nothing (the
model's choice, log entry 8, DESIGN CHOICE). -/
def Obligations.TripNoticeEmptiesTheSamplingPath : Prop :=
  ∀ s : State, s.rstLow = false →
    (s.transit.converterNotices = [] → exec .tripNoticeConverter s = .next s) ∧
    (∀ (cause : Option Nat) (rest : List (Option Nat)), s.transit.converterNotices = cause :: rest →
      (∀ tag ∈ s.transit.tags, cause ≠ some tag.step) →
      exec .tripNoticeConverter s = .next { s with
        transit := { s.transit with converterNotices := rest },
        sampler := { s.sampler with queue := [] },
        converter := { s.converter with
          state := .idle,
          report := match s.converter.state with
            | .calPending _ | .calibrating _ _ _ => .cancelled
            | .idle | .converting _ => s.converter.report } }) ∧
    ∀ (rest : List (Option Nat)) (before after : List SampleTag) (tag : SampleTag),
      s.transit.converterNotices = some tag.step :: rest → s.transit.tags = before ++ tag :: after →
      (∀ other ∈ before, other.step ≠ tag.step) → ∃ t : State,
        exec .sampleRequest { s with transit := { s.transit with tags := [tag] } } = .next t ∧
        exec .tripNoticeConverter s =
          exec .tripNoticeConverter { t with transit := { t.transit with tags := before ++ after } }

/-- SET_RING (R169): CONFIG for 0 and above 16; otherwise the watermark, and RESULTS when the count is at or above it. -/
def Obligations.SetRingSetsTheWatermark : Prop :=
  ∀ s : State, s.atWord 0x3B#7 →
    (s.port.p0.toNat = 0 ∨ 16 < s.port.p0.toNat → exec .setRing s = .next (s.acted 0x3B#7 .config)) ∧
    (1 ≤ s.port.p0.toNat → s.port.p0.toNat ≤ 16 →
      exec .setRing s = .next ((State.withFlags { s with ring := { s.ring with watermark := s.port.p0.toNat } }
        (if s.port.p0.toNat ≤ s.ring.records.length then 0x0020#13 else 0x0000#13)).acted 0x3B#7 .ok))

/-! ### The trip controller -/

/-- FAULT_SAMPLE (R173, R174): a disabled input's sample has no effect; a deasserted one clears count and condition; an
asserted one changes nothing while qualified, counts below Q, and at Q qualifies and sends the input's source.
FILTER_EXPIRY is the last of these. The model's own part: FILTER_EXPIRY as an event of its own (log entry 9, DEDUCED), that
it changes nothing where no filter expires (log entry 8, DESIGN CHOICE), and the instant each sample is stamped with (log
entry 6, DESIGN CHOICE). -/
def Obligations.FaultInputsAreFiltered : Prop :=
  (∀ (s : State) (i : Fin 2) (pinHigh asserted : Bool) (f : FaultInput), s.rstLow = false → f = s.trip.faults[i] →
    (asserted = true ↔ (pinHigh = true ↔ f.polarity = .assertHigh)) →
    ∃ g : FaultInput,
      (f.enabled = false → g = f) ∧
      (f.enabled = true → asserted = false → g = { f with count := 0, qualified := false }) ∧
      (f.enabled = true → asserted = true →
        (f.qualified = true → g = f) ∧
        (f.qualified = false → f.count < f.qualCount → g = { f with count := f.count + 1 }) ∧
        (f.qualified = false → f.qualCount ≤ f.count → g = { f with qualified := true })) ∧
      exec (.faultSample i pinHigh) s = .next { s with
        trip := { s.trip with
          faults := s.trip.faults.set i { g with lastSample := some s.environment.clk } },
        transit := { s.transit with
          sources := if g.qualified = true ∧ f.qualified = false then
              s.transit.sources ++ [⟨if i = 0 then .fault0 else .fault1, s.transit.steps⟩]
            else s.transit.sources } }) ∧
  ∀ (s : State) (i : Fin 2) (f : FaultInput), s.rstLow = false → f = s.trip.faults[i] →
    (f.enabled = true ∧ f.qualified = false ∧ f.qualCount ≤ f.count →
      exec (.filterExpiry i) s = .next { s with
        trip := { s.trip with
          faults := s.trip.faults.set i { f with qualified := true, lastSample := some s.environment.clk } },
        transit := { s.transit with
          sources := s.transit.sources ++ [⟨if i = 0 then .fault0 else .fault1, s.transit.steps⟩] } }) ∧
    (f.enabled = false ∨ f.qualified = true ∨ f.count < f.qualCount → exec (.filterExpiry i) s = .next s)

/-- SET_FAULT (R175, R176): CONFIG for a code above 1; otherwise both inputs and the SYNC_LOST enable in one step, an input
whose enable, polarity or Q changes starting again with count 0 and no condition, an unchanged one keeping both. -/
def Obligations.SetFaultRestartsChangedFilters : Prop :=
  ∀ s : State, s.atWord 0x35#7 →
    (1 < s.port.p0.toNat % 256 ∨ 1 < s.port.p0.toNat / 256 ∨ 1 < s.port.p1.toNat % 256 ∨ 1 < s.port.p1.toNat / 256 ∨
        1 < s.port.p3.toNat % 256 →
      exec .setFault s = .next (s.acted 0x35#7 .config)) ∧
    ∀ (enabled : Fin 2 → Bool) (polarity : Fin 2 → FaultPolarity) (syncLost : Bool) (code : FaultPolarity → Nat),
      code .assertHigh = 0 → code .assertLow = 1 →
      s.port.p0.toNat = (if enabled 0 then 1 else 0) + 256 * code (polarity 0) →
      s.port.p1.toNat = (if enabled 1 then 1 else 0) + 256 * code (polarity 1) →
      s.port.p3.toNat % 256 = (if syncLost then 1 else 0) →
      ∃ (q : Fin 2 → Nat) (faults : Vector FaultInput 2),
        q 0 = s.port.p2.toNat % 256 ∧ q 1 = s.port.p2.toNat / 256 ∧
        (∀ i : Fin 2,
          (s.trip.faults[i].enabled = enabled i ∧ s.trip.faults[i].polarity = polarity i ∧
              s.trip.faults[i].qualCount = q i → faults[i] = s.trip.faults[i]) ∧
          (¬(s.trip.faults[i].enabled = enabled i ∧ s.trip.faults[i].polarity = polarity i ∧
              s.trip.faults[i].qualCount = q i) →
            faults[i] = ⟨enabled i, polarity i, q i, 0, false, s.trip.faults[i].lastSample⟩)) ∧
        exec .setFault s = .next (State.acted { s with
          trip := { s.trip with faults := faults, syncLostEnable := syncLost } } 0x35#7 .ok)

/-- TRIP_SOURCE takes a source that was sent and TRIP the SOFTWARE source in its own step: ARMED it trips the device,
TRIPPED it is recorded or overflows (R172, R177 to R182, R187). Of several sources alike the oldest is taken, and the notice
of an INTERLOCK trip names the engine step in which its source arose (R104, log entry 2). A source that no block has sent
changes nothing (the model's choice, log entry 8, DESIGN CHOICE). -/
def Obligations.SourcesTripOrAreRecorded : Prop :=
  (∀ (s : State) (source : TripSource), s.rstLow = false →
    (∀ (before after : List SentSource) (sent : SentSource), s.transit.sources = before ++ sent :: after →
      sent.source = source → (∀ other ∈ before, other.source ≠ source) →
      exec (.tripSource source) s = .next (State.sourceTaken { s with
        transit := { s.transit with sources := before ++ after } } source (match source with
          | .interlock _ => some sent.step
          | .fault0 | .fault1 | .limit _ | .syncLost | .software => none))) ∧
    ((∀ sent ∈ s.transit.sources, sent.source ≠ source) → exec (.tripSource source) s = .next s)) ∧
  ∀ s : State, s.atWord 0x36#7 → exec .trip s = .next ((s.sourceTaken .software none).acted 0x36#7 .ok)

/-- CLEAR_TRIP (R183, R184): STATE while ARMED, FAULT_ACTIVE while a condition stands; taken, ARMED with an empty list and the
clear notice on its way to both blocks, the overflow counter kept. READ_TRIP_RECORD (R186): the record at the index, or
NOT_FOUND. The model's own part: trip notices not yet taken stay on their way (log entry 17, DESIGN CHOICE), and a condition
stands from its qualification on, though its source has not been taken (R183 against the table of R185; log entry 22,
DEDUCED). -/
def Obligations.TripIsClearedAndRead : Prop :=
  (∀ s : State, s.atWord 0x37#7 →
    (s.trip.state = .armed → exec .clearTrip s = .next (s.acted 0x37#7 .state)) ∧
    (s.trip.state = .tripped →
      ((∃ i : Fin 2, s.trip.faults[i].enabled = true ∧ s.trip.faults[i].qualified = true) →
        exec .clearTrip s = .next (s.acted 0x37#7 .faultActive)) ∧
      ((∀ i : Fin 2, s.trip.faults[i].enabled = true → s.trip.faults[i].qualified = false) →
        exec .clearTrip s = .next (State.acted { s with
          trip := { s.trip with state := .armed, records := [] },
          transit := { s.transit with clearTimebase := true, clearLines := true } } 0x37#7 .ok)))) ∧
  ∀ s : State, s.atWord 0x38#7 →
    (s.trip.records.length ≤ s.port.p0.toNat → exec .readTripRecord s = .next (s.acted 0x38#7 .notFound)) ∧
    ∀ (before after : List TripRecord) (r : TripRecord), s.trip.records = before ++ r :: after →
      s.port.p0.toNat = before.length →
      exec .readTripRecord s = .next ((s.withParams (r.word0 s.trip.records.length) r.word1 r.word2 0#16).acted
        0x38#7 .ok)

/-! ### Counters and soft reset -/

/-- CLEAR_COUNTERS sets all 24 counters to 0 and nothing else (R202). SOFT_RESET brings every block to its soft-reset values
(R203): plan store and validator (R16, R33, R61), timebase (R87), engine (R107), line block (R135), sampling path (R158),
ring (R171), trip controller (R189), flags. The banks but an unfinished copy, the configuration, the trip state and its
records, P0 to P3 and the enables are kept. That SOFT_RESET drops the claims, the sync expiry and the examinations under
way is the model's own (log entry 5, DEDUCED). -/
def Obligations.CountersAndSoftReset : Prop :=
  (∀ s : State, s.atWord 0x39#7 →
    exec .clearCounters s = .next (State.acted { s with
      timebase := { s.timebase with skipCount := 0, missCount := 0 },
      groups := tabulate fun g => { s.groups[g] with deferred := 0, abandoned := 0 },
      sampler := { s.sampler with slots := tabulate fun n => { s.sampler.slots[n] with drops := 0 } },
      ring := { s.ring with lost := 0 },
      trip := { s.trip with overflow := 0 } } 0x39#7 .ok)) ∧
  ∀ s : State, s.atWord 0x3A#7 →
    exec .softReset s = .next (State.acted { s with
      plan := { (if s.plan.staging = .copying then s.plan.withStaging ⟨1000, [], none⟩ else s.plan) with
        staging := .editing, lateWithdraw := false },
      validator := if s.plan.staging = .validating ∨ s.plan.staging = .pending then
          ⟨false, s.validator.junction, .cancelled .softReset⟩
        else s.validator,
      timebase := { s.timebase with
        state := if s.timebase.state = .halted then .halted else .stopped,
        frameNumber := if s.timebase.state = .halted then s.timebase.frameNumber else 0#16,
        tick := if s.timebase.state = .halted then s.timebase.tick else 0,
        dividerCount := 0, timeoutCount := 0, arrivalLatch := false, syncOut := false,
        skipCount := 0, missCount := 0 },
      engine := { s.engine with state := .idle },
      lines := tabulate fun i =>
        if s.tripIndicator then { s.lines[i] with mode := .rest }
        else { s.lines[i] with
          mode := .rest, level := s.lines[i].restLevel,
          age := if s.lines[i].level = .active ∧ s.lines[i].restLevel ≠ .active then 0 else s.lines[i].age },
      groups := tabulate fun g => { s.groups[g] with queue := [], deferred := 0, abandoned := 0 },
      sampler := ⟨tabulate fun n => { s.sampler.slots[n] with drops := 0 }, []⟩,
      converter := { s.converter with
        state := .idle,
        report := match s.converter.state with
          | .calPending _ | .calibrating _ _ _ => .cancelled
          | .idle | .converting _ => s.converter.report },
      ring := ⟨[], none, s.ring.watermark, 0⟩,
      trip := { s.trip with overflow := 0 },
      interrupts := { s.interrupts with flags := 0#13 },
      transit := { s.transit with claims := [], syncExpiry := false, headOwed := 0#6 } } 0x3A#7 .ok)

/-! ### What every step keeps -/

/-- The state after reset meets every law of this section. -/
def Obligations.ResetMeetsEveryLaw : Prop :=
  State.reset.BanksLawful ∧ State.reset.ActiveMarked ∧ State.reset.SelectorAgrees ∧ State.reset.ValidatorAgrees ∧
  State.reset.TickInFrame ∧ State.reset.EngineInFrame ∧ State.reset.GroupsSafe ∧ State.reset.QueuesLawful ∧ State.reset.TripLaw ∧
  State.reset.SamplingLaw ∧ State.reset.RingLaw ∧ State.reset.CountersLaw

/-- Every step keeps the laws of the plan store and the frame: both banks lawful (R6, R37), the active bank with its table
and mark (R8), bank A active exactly in even generations (R10), the validator running exactly in VALIDATING (R40), the tick
counter inside the frame (R65), and the edge engine's context that of the frame in progress, its cursor splitting the list
at the tick (R88 to R90). -/
def Obligations.StepsKeepThePlanStoreLawful : Prop :=
  ∀ s t : State, s.BanksLawful → s.ActiveMarked → s.SelectorAgrees → s.ValidatorAgrees → s.TickInFrame →
    s.EngineInFrame → step s = .next t →
    t.BanksLawful ∧ t.ActiveMarked ∧ t.SelectorAgrees ∧ t.ValidatorAgrees ∧ t.TickInFrame ∧ t.EngineInFrame

/-- Every step keeps every interlock group safe: at no time are two lines of one group both ACTIVE (R122). -/
def Obligations.StepsKeepGroupsSafe : Prop :=
  ∀ s t : State, s.GroupsSafe → step s = .next t → t.GroupsSafe

/-- A member line becomes ACTIVE in a step only when every other member of its group then stands down with a fall age of at
least the group's gap (R122), whatever the command. -/
def Obligations.MembersRiseOnlyAfterTheGap : Prop :=
  ∀ (c : Instr) (s t : State) (g : Fin 6) (x y : Fin 16), s.GroupsSafe → s.CountersLaw → exec c s = .next t →
    s.lines[x].level ≠ .active → t.lines[x].level = .active →
    t.lines[x].group = some g → t.lines[y].group = some g → y ≠ x →
    t.lines[y].level ≠ .active ∧ t.groups[g].gap ≤ t.lines[y].age

/-- Every step keeps the deferral queues lawful: each holds only members that are not ACTIVE, none twice, none past its
limit; groups keep 2 to 4 members or none (R117, R125, R126). -/
def Obligations.StepsKeepQueuesLawful : Prop :=
  ∀ s t : State, s.GroupsSafe → s.QueuesLawful → step s = .next t → t.QueuesLawful

/-- Every step keeps the law of the trip: the list is empty exactly while ARMED and holds at most 4; while TRIPPED the
timebase is HALTED, every line at its safe level and outside the FORCED modes, and no clear notice is under way (R132,
R177, R178, R184). -/
def Obligations.StepsKeepTheTripLaw : Prop :=
  ∀ s t : State, s.TripLaw → step s = .next t → t.TripLaw

/-- Every step keeps the capacities: at most 4 requests, none while the converter is IDLE, a trim of 0 to 31 (R142, R145,
R148); at most 16 records with values of 0 to 4095 and a watermark of 1 to 16 (R160, R161, R169); fall ages up to 1024 (R109)
and saturating counters (R202). -/
def Obligations.StepsKeepCapacities : Prop :=
  ∀ s t : State, s.SamplingLaw → s.RingLaw → s.CountersLaw → step s = .next t →
    t.SamplingLaw ∧ t.RingLaw ∧ t.CountersLaw
end
end

