-- ==== Sys2Proof/Laws/State.lean ====
section
/-! SUPPORT. The small lemmas of State: for every update, what each field is after it, so that no later proof unfolds a
record update. Each is true by `rfl`. -/

namespace Sys2Proof.Machine

variable (s : State)

/-! ### Tables -/

@[simp] theorem mapTable_getElem {n : Nat} {α β : Type} (v : Vector α n) (f : α → β) (i : Nat) (h : i < n) :
    (mapTable v f)[i] = f v[i] := by simp [mapTable]

@[simp] theorem tabulate_getElem {n : Nat} {α : Type} (f : Fin n → α) (i : Nat) (h : i < n) :
    (tabulate f)[i] = f ⟨i, h⟩ := by simp [tabulate]

theorem mapTable_eq_tabulate {n : Nat} {α β : Type} (v : Vector α n) (f : α → β) :
    mapTable v f = tabulate fun i => f v[i] := by
  apply Vector.ext; intro i hi; simp

/-! ### State.setFlag -/

@[simp] theorem State.setFlag_plan (f : Flag) : (s.setFlag f).plan = s.plan := rfl
@[simp] theorem State.setFlag_validator (f : Flag) : (s.setFlag f).validator = s.validator := rfl
@[simp] theorem State.setFlag_timebase (f : Flag) : (s.setFlag f).timebase = s.timebase := rfl
@[simp] theorem State.setFlag_engine (f : Flag) : (s.setFlag f).engine = s.engine := rfl
@[simp] theorem State.setFlag_lines (f : Flag) : (s.setFlag f).lines = s.lines := rfl
@[simp] theorem State.setFlag_groups (f : Flag) : (s.setFlag f).groups = s.groups := rfl
@[simp] theorem State.setFlag_tripIndicator (f : Flag) : (s.setFlag f).tripIndicator = s.tripIndicator := rfl
@[simp] theorem State.setFlag_sampler (f : Flag) : (s.setFlag f).sampler = s.sampler := rfl
@[simp] theorem State.setFlag_converter (f : Flag) : (s.setFlag f).converter = s.converter := rfl
@[simp] theorem State.setFlag_ring (f : Flag) : (s.setFlag f).ring = s.ring := rfl
@[simp] theorem State.setFlag_trip (f : Flag) : (s.setFlag f).trip = s.trip := rfl
@[simp] theorem State.setFlag_interrupts (f : Flag) : (s.setFlag f).interrupts = s.interrupts.withFlag f := rfl
@[simp] theorem State.setFlag_port (f : Flag) : (s.setFlag f).port = s.port := rfl
@[simp] theorem State.setFlag_rstLow (f : Flag) : (s.setFlag f).rstLow = s.rstLow := rfl
@[simp] theorem State.setFlag_transit (f : Flag) : (s.setFlag f).transit = s.transit := rfl
@[simp] theorem State.setFlag_environment (f : Flag) : (s.setFlag f).environment = s.environment := rfl
@[simp] theorem State.setFlag_pending (f : Flag) : (s.setFlag f).pending = s.pending := rfl

/-! ### State.endWriteWord -/

@[simp] theorem State.endWriteWord_plan (a : Address) : (s.endWriteWord a).plan = s.plan := rfl
@[simp] theorem State.endWriteWord_validator (a : Address) : (s.endWriteWord a).validator = s.validator := rfl
@[simp] theorem State.endWriteWord_timebase (a : Address) : (s.endWriteWord a).timebase = s.timebase := rfl
@[simp] theorem State.endWriteWord_engine (a : Address) : (s.endWriteWord a).engine = s.engine := rfl
@[simp] theorem State.endWriteWord_lines (a : Address) : (s.endWriteWord a).lines = s.lines := rfl
@[simp] theorem State.endWriteWord_groups (a : Address) : (s.endWriteWord a).groups = s.groups := rfl
@[simp] theorem State.endWriteWord_tripIndicator (a : Address) :
    (s.endWriteWord a).tripIndicator = s.tripIndicator := rfl
@[simp] theorem State.endWriteWord_sampler (a : Address) : (s.endWriteWord a).sampler = s.sampler := rfl
@[simp] theorem State.endWriteWord_converter (a : Address) : (s.endWriteWord a).converter = s.converter := rfl
@[simp] theorem State.endWriteWord_ring (a : Address) : (s.endWriteWord a).ring = s.ring := rfl
@[simp] theorem State.endWriteWord_trip (a : Address) : (s.endWriteWord a).trip = s.trip := rfl
@[simp] theorem State.endWriteWord_interrupts (a : Address) : (s.endWriteWord a).interrupts = s.interrupts := rfl
@[simp] theorem State.endWriteWord_port (a : Address) :
    (s.endWriteWord a).port = { s.port with phase := .writing (a + 1#7), readWord := 0#16 } := rfl
@[simp] theorem State.endWriteWord_rstLow (a : Address) : (s.endWriteWord a).rstLow = s.rstLow := rfl
@[simp] theorem State.endWriteWord_transit (a : Address) : (s.endWriteWord a).transit = s.transit := rfl
@[simp] theorem State.endWriteWord_environment (a : Address) : (s.endWriteWord a).environment = s.environment := rfl
@[simp] theorem State.endWriteWord_pending (a : Address) : (s.endWriteWord a).pending = s.pending := rfl

/-! ### State.answer -/

@[simp] theorem State.answer_plan (a : Address) (code : ResultCode) : (s.answer a code).plan = s.plan := rfl
@[simp] theorem State.answer_validator (a : Address) (code : ResultCode) :
    (s.answer a code).validator = s.validator := rfl
@[simp] theorem State.answer_timebase (a : Address) (code : ResultCode) :
    (s.answer a code).timebase = s.timebase := rfl
@[simp] theorem State.answer_engine (a : Address) (code : ResultCode) : (s.answer a code).engine = s.engine := rfl
@[simp] theorem State.answer_lines (a : Address) (code : ResultCode) : (s.answer a code).lines = s.lines := rfl
@[simp] theorem State.answer_groups (a : Address) (code : ResultCode) : (s.answer a code).groups = s.groups := rfl
@[simp] theorem State.answer_tripIndicator (a : Address) (code : ResultCode) :
    (s.answer a code).tripIndicator = s.tripIndicator := rfl
@[simp] theorem State.answer_sampler (a : Address) (code : ResultCode) : (s.answer a code).sampler = s.sampler := rfl
@[simp] theorem State.answer_converter (a : Address) (code : ResultCode) :
    (s.answer a code).converter = s.converter := rfl
@[simp] theorem State.answer_ring (a : Address) (code : ResultCode) : (s.answer a code).ring = s.ring := rfl
@[simp] theorem State.answer_trip (a : Address) (code : ResultCode) : (s.answer a code).trip = s.trip := rfl
@[simp] theorem State.answer_interrupts (a : Address) (code : ResultCode) :
    (s.answer a code).interrupts = s.interrupts := rfl
@[simp] theorem State.answer_port (a : Address) (code : ResultCode) :
    (s.answer a code).port = { s.port with code := code, actAddress := a } := rfl
@[simp] theorem State.answer_rstLow (a : Address) (code : ResultCode) : (s.answer a code).rstLow = s.rstLow := rfl
@[simp] theorem State.answer_transit (a : Address) (code : ResultCode) : (s.answer a code).transit = s.transit := rfl
@[simp] theorem State.answer_environment (a : Address) (code : ResultCode) :
    (s.answer a code).environment = s.environment := rfl
@[simp] theorem State.answer_pending (a : Address) (code : ResultCode) : (s.answer a code).pending = s.pending := rfl

/-! ### State.setParams -/

@[simp] theorem State.setParams_plan (p0 p1 p2 p3 : Word) : (s.setParams p0 p1 p2 p3).plan = s.plan := rfl
@[simp] theorem State.setParams_validator (p0 p1 p2 p3 : Word) :
    (s.setParams p0 p1 p2 p3).validator = s.validator := rfl
@[simp] theorem State.setParams_timebase (p0 p1 p2 p3 : Word) : (s.setParams p0 p1 p2 p3).timebase = s.timebase := rfl
@[simp] theorem State.setParams_engine (p0 p1 p2 p3 : Word) : (s.setParams p0 p1 p2 p3).engine = s.engine := rfl
@[simp] theorem State.setParams_lines (p0 p1 p2 p3 : Word) : (s.setParams p0 p1 p2 p3).lines = s.lines := rfl
@[simp] theorem State.setParams_groups (p0 p1 p2 p3 : Word) : (s.setParams p0 p1 p2 p3).groups = s.groups := rfl
@[simp] theorem State.setParams_tripIndicator (p0 p1 p2 p3 : Word) :
    (s.setParams p0 p1 p2 p3).tripIndicator = s.tripIndicator := rfl
@[simp] theorem State.setParams_sampler (p0 p1 p2 p3 : Word) : (s.setParams p0 p1 p2 p3).sampler = s.sampler := rfl
@[simp] theorem State.setParams_converter (p0 p1 p2 p3 : Word) :
    (s.setParams p0 p1 p2 p3).converter = s.converter := rfl
@[simp] theorem State.setParams_ring (p0 p1 p2 p3 : Word) : (s.setParams p0 p1 p2 p3).ring = s.ring := rfl
@[simp] theorem State.setParams_trip (p0 p1 p2 p3 : Word) : (s.setParams p0 p1 p2 p3).trip = s.trip := rfl
@[simp] theorem State.setParams_interrupts (p0 p1 p2 p3 : Word) :
    (s.setParams p0 p1 p2 p3).interrupts = s.interrupts := rfl
@[simp] theorem State.setParams_port (p0 p1 p2 p3 : Word) :
    (s.setParams p0 p1 p2 p3).port = { s.port with p0 := p0, p1 := p1, p2 := p2, p3 := p3 } := rfl
@[simp] theorem State.setParams_rstLow (p0 p1 p2 p3 : Word) : (s.setParams p0 p1 p2 p3).rstLow = s.rstLow := rfl
@[simp] theorem State.setParams_transit (p0 p1 p2 p3 : Word) : (s.setParams p0 p1 p2 p3).transit = s.transit := rfl
@[simp] theorem State.setParams_environment (p0 p1 p2 p3 : Word) :
    (s.setParams p0 p1 p2 p3).environment = s.environment := rfl
@[simp] theorem State.setParams_pending (p0 p1 p2 p3 : Word) : (s.setParams p0 p1 p2 p3).pending = s.pending := rfl

/-! ### State.takeSwap -/

@[simp] theorem State.takeSwap_plan : (s.takeSwap).plan = s.plan.swap := rfl
@[simp] theorem State.takeSwap_validator : (s.takeSwap).validator = s.validator := rfl
@[simp] theorem State.takeSwap_timebase : (s.takeSwap).timebase = s.timebase := rfl
@[simp] theorem State.takeSwap_engine : (s.takeSwap).engine = s.engine := rfl
@[simp] theorem State.takeSwap_lines : (s.takeSwap).lines = s.lines := rfl
@[simp] theorem State.takeSwap_groups : (s.takeSwap).groups = s.groups := rfl
@[simp] theorem State.takeSwap_tripIndicator : (s.takeSwap).tripIndicator = s.tripIndicator := rfl
@[simp] theorem State.takeSwap_sampler : (s.takeSwap).sampler = s.sampler := rfl
@[simp] theorem State.takeSwap_converter : (s.takeSwap).converter = s.converter := rfl
@[simp] theorem State.takeSwap_ring : (s.takeSwap).ring = s.ring := rfl
@[simp] theorem State.takeSwap_trip : (s.takeSwap).trip = s.trip := rfl
@[simp] theorem State.takeSwap_interrupts : (s.takeSwap).interrupts = s.interrupts.withFlag .taken := rfl
@[simp] theorem State.takeSwap_port : (s.takeSwap).port = s.port := rfl
@[simp] theorem State.takeSwap_rstLow : (s.takeSwap).rstLow = s.rstLow := rfl
@[simp] theorem State.takeSwap_transit : (s.takeSwap).transit = s.transit := rfl
@[simp] theorem State.takeSwap_environment : (s.takeSwap).environment = s.environment := rfl
@[simp] theorem State.takeSwap_pending : (s.takeSwap).pending = s.pending := rfl

/-! ### State.setStaging -/

@[simp] theorem State.setStaging_plan (plan : Plan) : (s.setStaging plan).plan = s.plan.withStaging plan := rfl
@[simp] theorem State.setStaging_validator (plan : Plan) : (s.setStaging plan).validator = s.validator := rfl
@[simp] theorem State.setStaging_timebase (plan : Plan) : (s.setStaging plan).timebase = s.timebase := rfl
@[simp] theorem State.setStaging_engine (plan : Plan) : (s.setStaging plan).engine = s.engine := rfl
@[simp] theorem State.setStaging_lines (plan : Plan) : (s.setStaging plan).lines = s.lines := rfl
@[simp] theorem State.setStaging_groups (plan : Plan) : (s.setStaging plan).groups = s.groups := rfl
@[simp] theorem State.setStaging_tripIndicator (plan : Plan) :
    (s.setStaging plan).tripIndicator = s.tripIndicator := rfl
@[simp] theorem State.setStaging_sampler (plan : Plan) : (s.setStaging plan).sampler = s.sampler := rfl
@[simp] theorem State.setStaging_converter (plan : Plan) : (s.setStaging plan).converter = s.converter := rfl
@[simp] theorem State.setStaging_ring (plan : Plan) : (s.setStaging plan).ring = s.ring := rfl
@[simp] theorem State.setStaging_trip (plan : Plan) : (s.setStaging plan).trip = s.trip := rfl
@[simp] theorem State.setStaging_interrupts (plan : Plan) : (s.setStaging plan).interrupts = s.interrupts := rfl
@[simp] theorem State.setStaging_port (plan : Plan) : (s.setStaging plan).port = s.port := rfl
@[simp] theorem State.setStaging_rstLow (plan : Plan) : (s.setStaging plan).rstLow = s.rstLow := rfl
@[simp] theorem State.setStaging_transit (plan : Plan) : (s.setStaging plan).transit = s.transit := rfl
@[simp] theorem State.setStaging_environment (plan : Plan) : (s.setStaging plan).environment = s.environment := rfl
@[simp] theorem State.setStaging_pending (plan : Plan) : (s.setStaging plan).pending = s.pending := rfl

/-! ### State.setStagingState -/

@[simp] theorem State.setStagingState_plan (staging : Staging) :
    (s.setStagingState staging).plan = { s.plan with staging := staging } := rfl
@[simp] theorem State.setStagingState_validator (staging : Staging) :
    (s.setStagingState staging).validator = s.validator := rfl
@[simp] theorem State.setStagingState_timebase (staging : Staging) :
    (s.setStagingState staging).timebase = s.timebase := rfl
@[simp] theorem State.setStagingState_engine (staging : Staging) :
    (s.setStagingState staging).engine = s.engine := rfl
@[simp] theorem State.setStagingState_lines (staging : Staging) : (s.setStagingState staging).lines = s.lines := rfl
@[simp] theorem State.setStagingState_groups (staging : Staging) :
    (s.setStagingState staging).groups = s.groups := rfl
@[simp] theorem State.setStagingState_tripIndicator (staging : Staging) :
    (s.setStagingState staging).tripIndicator = s.tripIndicator := rfl
@[simp] theorem State.setStagingState_sampler (staging : Staging) :
    (s.setStagingState staging).sampler = s.sampler := rfl
@[simp] theorem State.setStagingState_converter (staging : Staging) :
    (s.setStagingState staging).converter = s.converter := rfl
@[simp] theorem State.setStagingState_ring (staging : Staging) : (s.setStagingState staging).ring = s.ring := rfl
@[simp] theorem State.setStagingState_trip (staging : Staging) : (s.setStagingState staging).trip = s.trip := rfl
@[simp] theorem State.setStagingState_interrupts (staging : Staging) :
    (s.setStagingState staging).interrupts = s.interrupts := rfl
@[simp] theorem State.setStagingState_port (staging : Staging) : (s.setStagingState staging).port = s.port := rfl
@[simp] theorem State.setStagingState_rstLow (staging : Staging) :
    (s.setStagingState staging).rstLow = s.rstLow := rfl
@[simp] theorem State.setStagingState_transit (staging : Staging) :
    (s.setStagingState staging).transit = s.transit := rfl
@[simp] theorem State.setStagingState_environment (staging : Staging) :
    (s.setStagingState staging).environment = s.environment := rfl
@[simp] theorem State.setStagingState_pending (staging : Staging) :
    (s.setStagingState staging).pending = s.pending := rfl

/-! ### State.setLateWithdraw -/

@[simp] theorem State.setLateWithdraw_plan (late : Bool) :
    (s.setLateWithdraw late).plan = { s.plan with lateWithdraw := late } := rfl
@[simp] theorem State.setLateWithdraw_validator (late : Bool) :
    (s.setLateWithdraw late).validator = s.validator := rfl
@[simp] theorem State.setLateWithdraw_timebase (late : Bool) : (s.setLateWithdraw late).timebase = s.timebase := rfl
@[simp] theorem State.setLateWithdraw_engine (late : Bool) : (s.setLateWithdraw late).engine = s.engine := rfl
@[simp] theorem State.setLateWithdraw_lines (late : Bool) : (s.setLateWithdraw late).lines = s.lines := rfl
@[simp] theorem State.setLateWithdraw_groups (late : Bool) : (s.setLateWithdraw late).groups = s.groups := rfl
@[simp] theorem State.setLateWithdraw_tripIndicator (late : Bool) :
    (s.setLateWithdraw late).tripIndicator = s.tripIndicator := rfl
@[simp] theorem State.setLateWithdraw_sampler (late : Bool) : (s.setLateWithdraw late).sampler = s.sampler := rfl
@[simp] theorem State.setLateWithdraw_converter (late : Bool) :
    (s.setLateWithdraw late).converter = s.converter := rfl
@[simp] theorem State.setLateWithdraw_ring (late : Bool) : (s.setLateWithdraw late).ring = s.ring := rfl
@[simp] theorem State.setLateWithdraw_trip (late : Bool) : (s.setLateWithdraw late).trip = s.trip := rfl
@[simp] theorem State.setLateWithdraw_interrupts (late : Bool) :
    (s.setLateWithdraw late).interrupts = s.interrupts := rfl
@[simp] theorem State.setLateWithdraw_port (late : Bool) : (s.setLateWithdraw late).port = s.port := rfl
@[simp] theorem State.setLateWithdraw_rstLow (late : Bool) : (s.setLateWithdraw late).rstLow = s.rstLow := rfl
@[simp] theorem State.setLateWithdraw_transit (late : Bool) : (s.setLateWithdraw late).transit = s.transit := rfl
@[simp] theorem State.setLateWithdraw_environment (late : Bool) :
    (s.setLateWithdraw late).environment = s.environment := rfl
@[simp] theorem State.setLateWithdraw_pending (late : Bool) : (s.setLateWithdraw late).pending = s.pending := rfl

/-! ### State.sendSource -/

@[simp] theorem State.sendSource_plan (source : TripSource) : (s.sendSource source).plan = s.plan := rfl
@[simp] theorem State.sendSource_validator (source : TripSource) :
    (s.sendSource source).validator = s.validator := rfl
@[simp] theorem State.sendSource_timebase (source : TripSource) : (s.sendSource source).timebase = s.timebase := rfl
@[simp] theorem State.sendSource_engine (source : TripSource) : (s.sendSource source).engine = s.engine := rfl
@[simp] theorem State.sendSource_lines (source : TripSource) : (s.sendSource source).lines = s.lines := rfl
@[simp] theorem State.sendSource_groups (source : TripSource) : (s.sendSource source).groups = s.groups := rfl
@[simp] theorem State.sendSource_tripIndicator (source : TripSource) :
    (s.sendSource source).tripIndicator = s.tripIndicator := rfl
@[simp] theorem State.sendSource_sampler (source : TripSource) : (s.sendSource source).sampler = s.sampler := rfl
@[simp] theorem State.sendSource_converter (source : TripSource) :
    (s.sendSource source).converter = s.converter := rfl
@[simp] theorem State.sendSource_ring (source : TripSource) : (s.sendSource source).ring = s.ring := rfl
@[simp] theorem State.sendSource_trip (source : TripSource) : (s.sendSource source).trip = s.trip := rfl
@[simp] theorem State.sendSource_interrupts (source : TripSource) :
    (s.sendSource source).interrupts = s.interrupts := rfl
@[simp] theorem State.sendSource_port (source : TripSource) : (s.sendSource source).port = s.port := rfl
@[simp] theorem State.sendSource_rstLow (source : TripSource) : (s.sendSource source).rstLow = s.rstLow := rfl
@[simp] theorem State.sendSource_transit (source : TripSource) :
    (s.sendSource source).transit = { s.transit with sources := s.transit.sources ++ [⟨source, s.transit.steps⟩] } := rfl
@[simp] theorem State.sendSource_environment (source : TripSource) :
    (s.sendSource source).environment = s.environment := rfl
@[simp] theorem State.sendSource_pending (source : TripSource) : (s.sendSource source).pending = s.pending := rfl

/-! ### State.handOn -/

@[simp] theorem State.handOn_plan (claims : List Claim) (tags : Nat → List SampleTag) :
    (s.handOn claims tags).plan = s.plan := rfl
@[simp] theorem State.handOn_validator (claims : List Claim) (tags : Nat → List SampleTag) :
    (s.handOn claims tags).validator = s.validator := rfl
@[simp] theorem State.handOn_timebase (claims : List Claim) (tags : Nat → List SampleTag) :
    (s.handOn claims tags).timebase = s.timebase := rfl
@[simp] theorem State.handOn_engine (claims : List Claim) (tags : Nat → List SampleTag) :
    (s.handOn claims tags).engine = s.engine := rfl
@[simp] theorem State.handOn_lines (claims : List Claim) (tags : Nat → List SampleTag) :
    (s.handOn claims tags).lines = s.lines := rfl
@[simp] theorem State.handOn_groups (claims : List Claim) (tags : Nat → List SampleTag) :
    (s.handOn claims tags).groups = s.groups := rfl
@[simp] theorem State.handOn_tripIndicator (claims : List Claim) (tags : Nat → List SampleTag) :
    (s.handOn claims tags).tripIndicator = s.tripIndicator := rfl
@[simp] theorem State.handOn_sampler (claims : List Claim) (tags : Nat → List SampleTag) :
    (s.handOn claims tags).sampler = s.sampler := rfl
@[simp] theorem State.handOn_converter (claims : List Claim) (tags : Nat → List SampleTag) :
    (s.handOn claims tags).converter = s.converter := rfl
@[simp] theorem State.handOn_ring (claims : List Claim) (tags : Nat → List SampleTag) :
    (s.handOn claims tags).ring = s.ring := rfl
@[simp] theorem State.handOn_trip (claims : List Claim) (tags : Nat → List SampleTag) :
    (s.handOn claims tags).trip = s.trip := rfl
@[simp] theorem State.handOn_interrupts (claims : List Claim) (tags : Nat → List SampleTag) :
    (s.handOn claims tags).interrupts = s.interrupts := rfl
@[simp] theorem State.handOn_port (claims : List Claim) (tags : Nat → List SampleTag) :
    (s.handOn claims tags).port = s.port := rfl
@[simp] theorem State.handOn_rstLow (claims : List Claim) (tags : Nat → List SampleTag) :
    (s.handOn claims tags).rstLow = s.rstLow := rfl
@[simp] theorem State.handOn_environment (claims : List Claim) (tags : Nat → List SampleTag) :
    (s.handOn claims tags).environment = s.environment := rfl
@[simp] theorem State.handOn_pending (claims : List Claim) (tags : Nat → List SampleTag) :
    (s.handOn claims tags).pending = s.pending := rfl

/-! ### State.passClk -/

@[simp] theorem State.passClk_plan : (s.passClk).plan = s.plan := rfl
@[simp] theorem State.passClk_validator : (s.passClk).validator = s.validator := rfl
@[simp] theorem State.passClk_timebase : (s.passClk).timebase = s.timebase := rfl
@[simp] theorem State.passClk_engine : (s.passClk).engine = s.engine := rfl
@[simp] theorem State.passClk_lines : (s.passClk).lines = s.lines := rfl
@[simp] theorem State.passClk_groups : (s.passClk).groups = s.groups := rfl
@[simp] theorem State.passClk_tripIndicator : (s.passClk).tripIndicator = s.tripIndicator := rfl
@[simp] theorem State.passClk_sampler : (s.passClk).sampler = s.sampler := rfl
@[simp] theorem State.passClk_converter : (s.passClk).converter = s.converter := rfl
@[simp] theorem State.passClk_ring : (s.passClk).ring = s.ring := rfl
@[simp] theorem State.passClk_trip : (s.passClk).trip = s.trip := rfl
@[simp] theorem State.passClk_interrupts : (s.passClk).interrupts = s.interrupts := rfl
@[simp] theorem State.passClk_port : (s.passClk).port = s.port := rfl
@[simp] theorem State.passClk_rstLow : (s.passClk).rstLow = s.rstLow := rfl
@[simp] theorem State.passClk_transit : (s.passClk).transit = s.transit := rfl
@[simp] theorem State.passClk_environment :
    (s.passClk).environment = { s.environment with clk := s.environment.clk + 1 } := rfl
@[simp] theorem State.passClk_pending : (s.passClk).pending = s.pending := rfl

/-! ### State.afterSample -/

@[simp] theorem State.afterSample_plan (channel : Fin 9) : (s.afterSample channel).plan = s.plan := rfl
@[simp] theorem State.afterSample_validator (channel : Fin 9) : (s.afterSample channel).validator = s.validator := rfl
@[simp] theorem State.afterSample_timebase (channel : Fin 9) : (s.afterSample channel).timebase = s.timebase := rfl
@[simp] theorem State.afterSample_engine (channel : Fin 9) : (s.afterSample channel).engine = s.engine := rfl
@[simp] theorem State.afterSample_lines (channel : Fin 9) : (s.afterSample channel).lines = s.lines := rfl
@[simp] theorem State.afterSample_groups (channel : Fin 9) : (s.afterSample channel).groups = s.groups := rfl
@[simp] theorem State.afterSample_tripIndicator (channel : Fin 9) :
    (s.afterSample channel).tripIndicator = s.tripIndicator := rfl
@[simp] theorem State.afterSample_sampler (channel : Fin 9) : (s.afterSample channel).sampler = s.sampler := rfl
@[simp] theorem State.afterSample_converter (channel : Fin 9) : (s.afterSample channel).converter = s.converter := rfl
@[simp] theorem State.afterSample_ring (channel : Fin 9) : (s.afterSample channel).ring = s.ring := rfl
@[simp] theorem State.afterSample_trip (channel : Fin 9) : (s.afterSample channel).trip = s.trip := rfl
@[simp] theorem State.afterSample_interrupts (channel : Fin 9) :
    (s.afterSample channel).interrupts = s.interrupts := rfl
@[simp] theorem State.afterSample_port (channel : Fin 9) : (s.afterSample channel).port = s.port := rfl
@[simp] theorem State.afterSample_rstLow (channel : Fin 9) : (s.afterSample channel).rstLow = s.rstLow := rfl
@[simp] theorem State.afterSample_transit (channel : Fin 9) : (s.afterSample channel).transit = s.transit := rfl
@[simp] theorem State.afterSample_pending (channel : Fin 9) : (s.afterSample channel).pending = s.pending := rfl

/-! ### State.setLine -/

@[simp] theorem State.setLine_plan (i : Fin 16) (l : Line) : (s.setLine i l).plan = s.plan := rfl
@[simp] theorem State.setLine_validator (i : Fin 16) (l : Line) : (s.setLine i l).validator = s.validator := rfl
@[simp] theorem State.setLine_timebase (i : Fin 16) (l : Line) : (s.setLine i l).timebase = s.timebase := rfl
@[simp] theorem State.setLine_engine (i : Fin 16) (l : Line) : (s.setLine i l).engine = s.engine := rfl
@[simp] theorem State.setLine_groups (i : Fin 16) (l : Line) : (s.setLine i l).groups = s.groups := rfl
@[simp] theorem State.setLine_tripIndicator (i : Fin 16) (l : Line) :
    (s.setLine i l).tripIndicator = s.tripIndicator := rfl
@[simp] theorem State.setLine_sampler (i : Fin 16) (l : Line) : (s.setLine i l).sampler = s.sampler := rfl
@[simp] theorem State.setLine_converter (i : Fin 16) (l : Line) : (s.setLine i l).converter = s.converter := rfl
@[simp] theorem State.setLine_ring (i : Fin 16) (l : Line) : (s.setLine i l).ring = s.ring := rfl
@[simp] theorem State.setLine_trip (i : Fin 16) (l : Line) : (s.setLine i l).trip = s.trip := rfl
@[simp] theorem State.setLine_interrupts (i : Fin 16) (l : Line) : (s.setLine i l).interrupts = s.interrupts := rfl
@[simp] theorem State.setLine_port (i : Fin 16) (l : Line) : (s.setLine i l).port = s.port := rfl
@[simp] theorem State.setLine_rstLow (i : Fin 16) (l : Line) : (s.setLine i l).rstLow = s.rstLow := rfl
@[simp] theorem State.setLine_transit (i : Fin 16) (l : Line) : (s.setLine i l).transit = s.transit := rfl
@[simp] theorem State.setLine_environment (i : Fin 16) (l : Line) : (s.setLine i l).environment = s.environment := rfl
@[simp] theorem State.setLine_pending (i : Fin 16) (l : Line) : (s.setLine i l).pending = s.pending := rfl

/-! ### State.setMode -/

@[simp] theorem State.setMode_plan (i : Fin 16) (mode : LineMode) : (s.setMode i mode).plan = s.plan := rfl
@[simp] theorem State.setMode_validator (i : Fin 16) (mode : LineMode) :
    (s.setMode i mode).validator = s.validator := rfl
@[simp] theorem State.setMode_timebase (i : Fin 16) (mode : LineMode) :
    (s.setMode i mode).timebase = s.timebase := rfl
@[simp] theorem State.setMode_engine (i : Fin 16) (mode : LineMode) : (s.setMode i mode).engine = s.engine := rfl
@[simp] theorem State.setMode_groups (i : Fin 16) (mode : LineMode) : (s.setMode i mode).groups = s.groups := rfl
@[simp] theorem State.setMode_tripIndicator (i : Fin 16) (mode : LineMode) :
    (s.setMode i mode).tripIndicator = s.tripIndicator := rfl
@[simp] theorem State.setMode_sampler (i : Fin 16) (mode : LineMode) : (s.setMode i mode).sampler = s.sampler := rfl
@[simp] theorem State.setMode_converter (i : Fin 16) (mode : LineMode) :
    (s.setMode i mode).converter = s.converter := rfl
@[simp] theorem State.setMode_ring (i : Fin 16) (mode : LineMode) : (s.setMode i mode).ring = s.ring := rfl
@[simp] theorem State.setMode_trip (i : Fin 16) (mode : LineMode) : (s.setMode i mode).trip = s.trip := rfl
@[simp] theorem State.setMode_interrupts (i : Fin 16) (mode : LineMode) :
    (s.setMode i mode).interrupts = s.interrupts := rfl
@[simp] theorem State.setMode_port (i : Fin 16) (mode : LineMode) : (s.setMode i mode).port = s.port := rfl
@[simp] theorem State.setMode_rstLow (i : Fin 16) (mode : LineMode) : (s.setMode i mode).rstLow = s.rstLow := rfl
@[simp] theorem State.setMode_transit (i : Fin 16) (mode : LineMode) : (s.setMode i mode).transit = s.transit := rfl
@[simp] theorem State.setMode_environment (i : Fin 16) (mode : LineMode) :
    (s.setMode i mode).environment = s.environment := rfl
@[simp] theorem State.setMode_pending (i : Fin 16) (mode : LineMode) : (s.setMode i mode).pending = s.pending := rfl

/-! ### State.setGroupRecord -/

@[simp] theorem State.setGroupRecord_plan (g : Fin 6) (r : InterlockGroup) :
    (s.setGroupRecord g r).plan = s.plan := rfl
@[simp] theorem State.setGroupRecord_validator (g : Fin 6) (r : InterlockGroup) :
    (s.setGroupRecord g r).validator = s.validator := rfl
@[simp] theorem State.setGroupRecord_timebase (g : Fin 6) (r : InterlockGroup) :
    (s.setGroupRecord g r).timebase = s.timebase := rfl
@[simp] theorem State.setGroupRecord_engine (g : Fin 6) (r : InterlockGroup) :
    (s.setGroupRecord g r).engine = s.engine := rfl
@[simp] theorem State.setGroupRecord_lines (g : Fin 6) (r : InterlockGroup) :
    (s.setGroupRecord g r).lines = s.lines := rfl
@[simp] theorem State.setGroupRecord_tripIndicator (g : Fin 6) (r : InterlockGroup) :
    (s.setGroupRecord g r).tripIndicator = s.tripIndicator := rfl
@[simp] theorem State.setGroupRecord_sampler (g : Fin 6) (r : InterlockGroup) :
    (s.setGroupRecord g r).sampler = s.sampler := rfl
@[simp] theorem State.setGroupRecord_converter (g : Fin 6) (r : InterlockGroup) :
    (s.setGroupRecord g r).converter = s.converter := rfl
@[simp] theorem State.setGroupRecord_ring (g : Fin 6) (r : InterlockGroup) :
    (s.setGroupRecord g r).ring = s.ring := rfl
@[simp] theorem State.setGroupRecord_trip (g : Fin 6) (r : InterlockGroup) :
    (s.setGroupRecord g r).trip = s.trip := rfl
@[simp] theorem State.setGroupRecord_interrupts (g : Fin 6) (r : InterlockGroup) :
    (s.setGroupRecord g r).interrupts = s.interrupts := rfl
@[simp] theorem State.setGroupRecord_port (g : Fin 6) (r : InterlockGroup) :
    (s.setGroupRecord g r).port = s.port := rfl
@[simp] theorem State.setGroupRecord_rstLow (g : Fin 6) (r : InterlockGroup) :
    (s.setGroupRecord g r).rstLow = s.rstLow := rfl
@[simp] theorem State.setGroupRecord_transit (g : Fin 6) (r : InterlockGroup) :
    (s.setGroupRecord g r).transit = s.transit := rfl
@[simp] theorem State.setGroupRecord_environment (g : Fin 6) (r : InterlockGroup) :
    (s.setGroupRecord g r).environment = s.environment := rfl
@[simp] theorem State.setGroupRecord_pending (g : Fin 6) (r : InterlockGroup) :
    (s.setGroupRecord g r).pending = s.pending := rfl

/-! ### State.advanceAges -/

@[simp] theorem State.advanceAges_plan : (s.advanceAges).plan = s.plan := rfl
@[simp] theorem State.advanceAges_validator : (s.advanceAges).validator = s.validator := rfl
@[simp] theorem State.advanceAges_timebase : (s.advanceAges).timebase = s.timebase := rfl
@[simp] theorem State.advanceAges_engine : (s.advanceAges).engine = s.engine := rfl
@[simp] theorem State.advanceAges_lines : (s.advanceAges).lines = mapTable s.lines Line.aged := rfl
@[simp] theorem State.advanceAges_groups : (s.advanceAges).groups = mapTable s.groups InterlockGroup.aged := rfl
@[simp] theorem State.advanceAges_tripIndicator : (s.advanceAges).tripIndicator = s.tripIndicator := rfl
@[simp] theorem State.advanceAges_sampler : (s.advanceAges).sampler = s.sampler := rfl
@[simp] theorem State.advanceAges_converter : (s.advanceAges).converter = s.converter := rfl
@[simp] theorem State.advanceAges_ring : (s.advanceAges).ring = s.ring := rfl
@[simp] theorem State.advanceAges_trip : (s.advanceAges).trip = s.trip := rfl
@[simp] theorem State.advanceAges_interrupts : (s.advanceAges).interrupts = s.interrupts := rfl
@[simp] theorem State.advanceAges_port : (s.advanceAges).port = s.port := rfl
@[simp] theorem State.advanceAges_rstLow : (s.advanceAges).rstLow = s.rstLow := rfl
@[simp] theorem State.advanceAges_transit : (s.advanceAges).transit = s.transit := rfl
@[simp] theorem State.advanceAges_environment : (s.advanceAges).environment = s.environment := rfl
@[simp] theorem State.advanceAges_pending : (s.advanceAges).pending = s.pending := rfl

/-! ### State.emptyQueues -/

@[simp] theorem State.emptyQueues_plan : (s.emptyQueues).plan = s.plan := rfl
@[simp] theorem State.emptyQueues_validator : (s.emptyQueues).validator = s.validator := rfl
@[simp] theorem State.emptyQueues_timebase : (s.emptyQueues).timebase = s.timebase := rfl
@[simp] theorem State.emptyQueues_engine : (s.emptyQueues).engine = s.engine := rfl
@[simp] theorem State.emptyQueues_lines : (s.emptyQueues).lines = s.lines := rfl
@[simp] theorem State.emptyQueues_groups :
    (s.emptyQueues).groups = mapTable s.groups fun r => { r with queue := [] } := rfl
@[simp] theorem State.emptyQueues_tripIndicator : (s.emptyQueues).tripIndicator = s.tripIndicator := rfl
@[simp] theorem State.emptyQueues_sampler : (s.emptyQueues).sampler = s.sampler := rfl
@[simp] theorem State.emptyQueues_converter : (s.emptyQueues).converter = s.converter := rfl
@[simp] theorem State.emptyQueues_ring : (s.emptyQueues).ring = s.ring := rfl
@[simp] theorem State.emptyQueues_trip : (s.emptyQueues).trip = s.trip := rfl
@[simp] theorem State.emptyQueues_interrupts : (s.emptyQueues).interrupts = s.interrupts := rfl
@[simp] theorem State.emptyQueues_port : (s.emptyQueues).port = s.port := rfl
@[simp] theorem State.emptyQueues_rstLow : (s.emptyQueues).rstLow = s.rstLow := rfl
@[simp] theorem State.emptyQueues_transit : (s.emptyQueues).transit = s.transit := rfl
@[simp] theorem State.emptyQueues_environment : (s.emptyQueues).environment = s.environment := rfl
@[simp] theorem State.emptyQueues_pending : (s.emptyQueues).pending = s.pending := rfl

/-! ### State.tripLines -/

@[simp] theorem State.tripLines_plan : (s.tripLines).plan = s.plan := rfl
@[simp] theorem State.tripLines_validator : (s.tripLines).validator = s.validator := rfl
@[simp] theorem State.tripLines_timebase : (s.tripLines).timebase = s.timebase := rfl
@[simp] theorem State.tripLines_engine : (s.tripLines).engine = s.engine := rfl
@[simp] theorem State.tripLines_lines : (s.tripLines).lines = mapTable s.lines Line.safe := rfl
@[simp] theorem State.tripLines_groups : (s.tripLines).groups = mapTable s.groups fun r => { r with queue := [] } := rfl
@[simp] theorem State.tripLines_tripIndicator : (s.tripLines).tripIndicator = true := rfl
@[simp] theorem State.tripLines_sampler : (s.tripLines).sampler = s.sampler := rfl
@[simp] theorem State.tripLines_converter : (s.tripLines).converter = s.converter := rfl
@[simp] theorem State.tripLines_ring : (s.tripLines).ring = s.ring := rfl
@[simp] theorem State.tripLines_trip : (s.tripLines).trip = s.trip := rfl
@[simp] theorem State.tripLines_interrupts : (s.tripLines).interrupts = s.interrupts := rfl
@[simp] theorem State.tripLines_port : (s.tripLines).port = s.port := rfl
@[simp] theorem State.tripLines_rstLow : (s.tripLines).rstLow = s.rstLow := rfl
@[simp] theorem State.tripLines_transit : (s.tripLines).transit = s.transit := rfl
@[simp] theorem State.tripLines_environment : (s.tripLines).environment = s.environment := rfl
@[simp] theorem State.tripLines_pending : (s.tripLines).pending = s.pending := rfl

/-! ### State.clearLines -/

@[simp] theorem State.clearLines_plan : (s.clearLines).plan = s.plan := rfl
@[simp] theorem State.clearLines_validator : (s.clearLines).validator = s.validator := rfl
@[simp] theorem State.clearLines_timebase : (s.clearLines).timebase = s.timebase := rfl
@[simp] theorem State.clearLines_engine : (s.clearLines).engine = s.engine := rfl
@[simp] theorem State.clearLines_lines : (s.clearLines).lines = mapTable s.lines fun l => l.atLevel l.restLevel := rfl
@[simp] theorem State.clearLines_groups : (s.clearLines).groups = s.groups := rfl
@[simp] theorem State.clearLines_tripIndicator : (s.clearLines).tripIndicator = false := rfl
@[simp] theorem State.clearLines_sampler : (s.clearLines).sampler = s.sampler := rfl
@[simp] theorem State.clearLines_converter : (s.clearLines).converter = s.converter := rfl
@[simp] theorem State.clearLines_ring : (s.clearLines).ring = s.ring := rfl
@[simp] theorem State.clearLines_trip : (s.clearLines).trip = s.trip := rfl
@[simp] theorem State.clearLines_interrupts : (s.clearLines).interrupts = s.interrupts := rfl
@[simp] theorem State.clearLines_port : (s.clearLines).port = s.port := rfl
@[simp] theorem State.clearLines_rstLow : (s.clearLines).rstLow = s.rstLow := rfl
@[simp] theorem State.clearLines_transit : (s.clearLines).transit = { s.transit with claims := [] } := rfl
@[simp] theorem State.clearLines_environment : (s.clearLines).environment = s.environment := rfl
@[simp] theorem State.clearLines_pending : (s.clearLines).pending = s.pending := rfl

/-! ### State.prescalerNotice -/

@[simp] theorem State.prescalerNotice_plan : (s.prescalerNotice).plan = s.plan := rfl
@[simp] theorem State.prescalerNotice_validator : (s.prescalerNotice).validator = s.validator := rfl
@[simp] theorem State.prescalerNotice_timebase : (s.prescalerNotice).timebase = s.timebase := rfl
@[simp] theorem State.prescalerNotice_engine : (s.prescalerNotice).engine = s.engine := rfl
@[simp] theorem State.prescalerNotice_lines :
    (s.prescalerNotice).lines = mapTable s.lines fun l => { l with age := 0 } := rfl
@[simp] theorem State.prescalerNotice_groups : (s.prescalerNotice).groups = s.groups := rfl
@[simp] theorem State.prescalerNotice_tripIndicator : (s.prescalerNotice).tripIndicator = s.tripIndicator := rfl
@[simp] theorem State.prescalerNotice_sampler : (s.prescalerNotice).sampler = s.sampler := rfl
@[simp] theorem State.prescalerNotice_converter : (s.prescalerNotice).converter = s.converter := rfl
@[simp] theorem State.prescalerNotice_ring : (s.prescalerNotice).ring = s.ring := rfl
@[simp] theorem State.prescalerNotice_trip : (s.prescalerNotice).trip = s.trip := rfl
@[simp] theorem State.prescalerNotice_interrupts : (s.prescalerNotice).interrupts = s.interrupts := rfl
@[simp] theorem State.prescalerNotice_port : (s.prescalerNotice).port = s.port := rfl
@[simp] theorem State.prescalerNotice_rstLow : (s.prescalerNotice).rstLow = s.rstLow := rfl
@[simp] theorem State.prescalerNotice_transit : (s.prescalerNotice).transit = s.transit := rfl
@[simp] theorem State.prescalerNotice_environment : (s.prescalerNotice).environment = s.environment := rfl
@[simp] theorem State.prescalerNotice_pending : (s.prescalerNotice).pending = s.pending := rfl

/-! ### State.idleEngine -/

@[simp] theorem State.idleEngine_plan : (s.idleEngine).plan = s.plan := rfl
@[simp] theorem State.idleEngine_validator : (s.idleEngine).validator = s.validator := rfl
@[simp] theorem State.idleEngine_timebase : (s.idleEngine).timebase = s.timebase := rfl
@[simp] theorem State.idleEngine_engine : (s.idleEngine).engine = { s.engine with state := .idle } := rfl
@[simp] theorem State.idleEngine_lines : (s.idleEngine).lines = s.lines := rfl
@[simp] theorem State.idleEngine_groups : (s.idleEngine).groups = s.groups := rfl
@[simp] theorem State.idleEngine_tripIndicator : (s.idleEngine).tripIndicator = s.tripIndicator := rfl
@[simp] theorem State.idleEngine_sampler : (s.idleEngine).sampler = s.sampler := rfl
@[simp] theorem State.idleEngine_converter : (s.idleEngine).converter = s.converter := rfl
@[simp] theorem State.idleEngine_ring : (s.idleEngine).ring = s.ring := rfl
@[simp] theorem State.idleEngine_trip : (s.idleEngine).trip = s.trip := rfl
@[simp] theorem State.idleEngine_interrupts : (s.idleEngine).interrupts = s.interrupts := rfl
@[simp] theorem State.idleEngine_port : (s.idleEngine).port = s.port := rfl
@[simp] theorem State.idleEngine_rstLow : (s.idleEngine).rstLow = s.rstLow := rfl
@[simp] theorem State.idleEngine_transit : (s.idleEngine).transit = s.transit := rfl
@[simp] theorem State.idleEngine_environment : (s.idleEngine).environment = s.environment := rfl
@[simp] theorem State.idleEngine_pending : (s.idleEngine).pending = s.pending := rfl

/-! ### State.haltTimebase -/

@[simp] theorem State.haltTimebase_plan : (s.haltTimebase).plan = s.plan := rfl
@[simp] theorem State.haltTimebase_validator : (s.haltTimebase).validator = s.validator := rfl
@[simp] theorem State.haltTimebase_timebase :
    (s.haltTimebase).timebase = { s.timebase with state := .halted, syncOut := false } := rfl
@[simp] theorem State.haltTimebase_engine : (s.haltTimebase).engine = { s.engine with state := .idle } := rfl
@[simp] theorem State.haltTimebase_lines : (s.haltTimebase).lines = s.lines := rfl
@[simp] theorem State.haltTimebase_groups : (s.haltTimebase).groups = s.groups := rfl
@[simp] theorem State.haltTimebase_tripIndicator : (s.haltTimebase).tripIndicator = s.tripIndicator := rfl
@[simp] theorem State.haltTimebase_sampler : (s.haltTimebase).sampler = s.sampler := rfl
@[simp] theorem State.haltTimebase_converter : (s.haltTimebase).converter = s.converter := rfl
@[simp] theorem State.haltTimebase_ring : (s.haltTimebase).ring = s.ring := rfl
@[simp] theorem State.haltTimebase_trip : (s.haltTimebase).trip = s.trip := rfl
@[simp] theorem State.haltTimebase_interrupts : (s.haltTimebase).interrupts = s.interrupts := rfl
@[simp] theorem State.haltTimebase_port : (s.haltTimebase).port = s.port := rfl
@[simp] theorem State.haltTimebase_rstLow : (s.haltTimebase).rstLow = s.rstLow := rfl
@[simp] theorem State.haltTimebase_transit : (s.haltTimebase).transit = { s.transit with syncExpiry := false } := rfl
@[simp] theorem State.haltTimebase_environment : (s.haltTimebase).environment = s.environment := rfl
@[simp] theorem State.haltTimebase_pending : (s.haltTimebase).pending = s.pending := rfl

/-! ### State.sendTripNotices -/

@[simp] theorem State.sendTripNotices_plan (sent : SentSource) : (s.sendTripNotices sent).plan = s.plan := rfl
@[simp] theorem State.sendTripNotices_validator (sent : SentSource) :
    (s.sendTripNotices sent).validator = s.validator := rfl
@[simp] theorem State.sendTripNotices_timebase (sent : SentSource) :
    (s.sendTripNotices sent).timebase = s.timebase := rfl
@[simp] theorem State.sendTripNotices_engine (sent : SentSource) :
    (s.sendTripNotices sent).engine = s.engine := rfl
@[simp] theorem State.sendTripNotices_lines (sent : SentSource) : (s.sendTripNotices sent).lines = s.lines := rfl
@[simp] theorem State.sendTripNotices_groups (sent : SentSource) :
    (s.sendTripNotices sent).groups = s.groups := rfl
@[simp] theorem State.sendTripNotices_tripIndicator (sent : SentSource) :
    (s.sendTripNotices sent).tripIndicator = s.tripIndicator := rfl
@[simp] theorem State.sendTripNotices_sampler (sent : SentSource) :
    (s.sendTripNotices sent).sampler = s.sampler := rfl
@[simp] theorem State.sendTripNotices_converter (sent : SentSource) :
    (s.sendTripNotices sent).converter = s.converter := rfl
@[simp] theorem State.sendTripNotices_ring (sent : SentSource) : (s.sendTripNotices sent).ring = s.ring := rfl
@[simp] theorem State.sendTripNotices_trip (sent : SentSource) : (s.sendTripNotices sent).trip = s.trip := rfl
@[simp] theorem State.sendTripNotices_interrupts (sent : SentSource) :
    (s.sendTripNotices sent).interrupts = s.interrupts := rfl
@[simp] theorem State.sendTripNotices_port (sent : SentSource) : (s.sendTripNotices sent).port = s.port := rfl
@[simp] theorem State.sendTripNotices_rstLow (sent : SentSource) :
    (s.sendTripNotices sent).rstLow = s.rstLow := rfl
@[simp] theorem State.sendTripNotices_environment (sent : SentSource) :
    (s.sendTripNotices sent).environment = s.environment := rfl
@[simp] theorem State.sendTripNotices_pending (sent : SentSource) :
    (s.sendTripNotices sent).pending = s.pending := rfl

/-! ### State.tickClock -/

@[simp] theorem State.tickClock_plan : (s.tickClock).plan = s.plan := rfl
@[simp] theorem State.tickClock_validator : (s.tickClock).validator = s.validator := rfl
@[simp] theorem State.tickClock_engine : (s.tickClock).engine = s.engine := rfl
@[simp] theorem State.tickClock_lines : (s.tickClock).lines = s.lines := rfl
@[simp] theorem State.tickClock_groups : (s.tickClock).groups = s.groups := rfl
@[simp] theorem State.tickClock_tripIndicator : (s.tickClock).tripIndicator = s.tripIndicator := rfl
@[simp] theorem State.tickClock_sampler : (s.tickClock).sampler = s.sampler := rfl
@[simp] theorem State.tickClock_converter : (s.tickClock).converter = s.converter := rfl
@[simp] theorem State.tickClock_ring : (s.tickClock).ring = s.ring := rfl
@[simp] theorem State.tickClock_trip : (s.tickClock).trip = s.trip := rfl
@[simp] theorem State.tickClock_interrupts : (s.tickClock).interrupts = s.interrupts := rfl
@[simp] theorem State.tickClock_port : (s.tickClock).port = s.port := rfl
@[simp] theorem State.tickClock_rstLow : (s.tickClock).rstLow = s.rstLow := rfl
@[simp] theorem State.tickClock_transit : (s.tickClock).transit = s.transit := rfl
@[simp] theorem State.tickClock_pending : (s.tickClock).pending = s.pending := rfl

/-! ### State.setSlotRecord -/

@[simp] theorem State.setSlotRecord_plan (slot : Fin 8) (r : Slot) : (s.setSlotRecord slot r).plan = s.plan := rfl
@[simp] theorem State.setSlotRecord_validator (slot : Fin 8) (r : Slot) :
    (s.setSlotRecord slot r).validator = s.validator := rfl
@[simp] theorem State.setSlotRecord_timebase (slot : Fin 8) (r : Slot) :
    (s.setSlotRecord slot r).timebase = s.timebase := rfl
@[simp] theorem State.setSlotRecord_engine (slot : Fin 8) (r : Slot) :
    (s.setSlotRecord slot r).engine = s.engine := rfl
@[simp] theorem State.setSlotRecord_lines (slot : Fin 8) (r : Slot) : (s.setSlotRecord slot r).lines = s.lines := rfl
@[simp] theorem State.setSlotRecord_groups (slot : Fin 8) (r : Slot) :
    (s.setSlotRecord slot r).groups = s.groups := rfl
@[simp] theorem State.setSlotRecord_tripIndicator (slot : Fin 8) (r : Slot) :
    (s.setSlotRecord slot r).tripIndicator = s.tripIndicator := rfl
@[simp] theorem State.setSlotRecord_sampler (slot : Fin 8) (r : Slot) :
    (s.setSlotRecord slot r).sampler = { s.sampler with slots := s.sampler.slots.set slot r } := rfl
@[simp] theorem State.setSlotRecord_converter (slot : Fin 8) (r : Slot) :
    (s.setSlotRecord slot r).converter = s.converter := rfl
@[simp] theorem State.setSlotRecord_ring (slot : Fin 8) (r : Slot) : (s.setSlotRecord slot r).ring = s.ring := rfl
@[simp] theorem State.setSlotRecord_trip (slot : Fin 8) (r : Slot) : (s.setSlotRecord slot r).trip = s.trip := rfl
@[simp] theorem State.setSlotRecord_interrupts (slot : Fin 8) (r : Slot) :
    (s.setSlotRecord slot r).interrupts = s.interrupts := rfl
@[simp] theorem State.setSlotRecord_port (slot : Fin 8) (r : Slot) : (s.setSlotRecord slot r).port = s.port := rfl
@[simp] theorem State.setSlotRecord_rstLow (slot : Fin 8) (r : Slot) :
    (s.setSlotRecord slot r).rstLow = s.rstLow := rfl
@[simp] theorem State.setSlotRecord_transit (slot : Fin 8) (r : Slot) :
    (s.setSlotRecord slot r).transit = s.transit := rfl
@[simp] theorem State.setSlotRecord_environment (slot : Fin 8) (r : Slot) :
    (s.setSlotRecord slot r).environment = s.environment := rfl
@[simp] theorem State.setSlotRecord_pending (slot : Fin 8) (r : Slot) :
    (s.setSlotRecord slot r).pending = s.pending := rfl

/-! ### State.dropRequest -/

@[simp] theorem State.dropRequest_plan (slot : Fin 8) : (s.dropRequest slot).plan = s.plan := rfl
@[simp] theorem State.dropRequest_validator (slot : Fin 8) : (s.dropRequest slot).validator = s.validator := rfl
@[simp] theorem State.dropRequest_timebase (slot : Fin 8) : (s.dropRequest slot).timebase = s.timebase := rfl
@[simp] theorem State.dropRequest_engine (slot : Fin 8) : (s.dropRequest slot).engine = s.engine := rfl
@[simp] theorem State.dropRequest_lines (slot : Fin 8) : (s.dropRequest slot).lines = s.lines := rfl
@[simp] theorem State.dropRequest_groups (slot : Fin 8) : (s.dropRequest slot).groups = s.groups := rfl
@[simp] theorem State.dropRequest_tripIndicator (slot : Fin 8) :
    (s.dropRequest slot).tripIndicator = s.tripIndicator := rfl
@[simp] theorem State.dropRequest_converter (slot : Fin 8) : (s.dropRequest slot).converter = s.converter := rfl
@[simp] theorem State.dropRequest_ring (slot : Fin 8) : (s.dropRequest slot).ring = s.ring := rfl
@[simp] theorem State.dropRequest_trip (slot : Fin 8) : (s.dropRequest slot).trip = s.trip := rfl
@[simp] theorem State.dropRequest_port (slot : Fin 8) : (s.dropRequest slot).port = s.port := rfl
@[simp] theorem State.dropRequest_rstLow (slot : Fin 8) : (s.dropRequest slot).rstLow = s.rstLow := rfl
@[simp] theorem State.dropRequest_transit (slot : Fin 8) : (s.dropRequest slot).transit = s.transit := rfl
@[simp] theorem State.dropRequest_environment (slot : Fin 8) : (s.dropRequest slot).environment = s.environment := rfl
@[simp] theorem State.dropRequest_pending (slot : Fin 8) : (s.dropRequest slot).pending = s.pending := rfl

/-! ### State.setConverterState -/

@[simp] theorem State.setConverterState_plan (c : ConverterState) : (s.setConverterState c).plan = s.plan := rfl
@[simp] theorem State.setConverterState_validator (c : ConverterState) :
    (s.setConverterState c).validator = s.validator := rfl
@[simp] theorem State.setConverterState_timebase (c : ConverterState) :
    (s.setConverterState c).timebase = s.timebase := rfl
@[simp] theorem State.setConverterState_engine (c : ConverterState) : (s.setConverterState c).engine = s.engine := rfl
@[simp] theorem State.setConverterState_lines (c : ConverterState) : (s.setConverterState c).lines = s.lines := rfl
@[simp] theorem State.setConverterState_groups (c : ConverterState) : (s.setConverterState c).groups = s.groups := rfl
@[simp] theorem State.setConverterState_tripIndicator (c : ConverterState) :
    (s.setConverterState c).tripIndicator = s.tripIndicator := rfl
@[simp] theorem State.setConverterState_sampler (c : ConverterState) :
    (s.setConverterState c).sampler = s.sampler := rfl
@[simp] theorem State.setConverterState_converter (c : ConverterState) :
    (s.setConverterState c).converter = { s.converter with state := c } := rfl
@[simp] theorem State.setConverterState_ring (c : ConverterState) : (s.setConverterState c).ring = s.ring := rfl
@[simp] theorem State.setConverterState_trip (c : ConverterState) : (s.setConverterState c).trip = s.trip := rfl
@[simp] theorem State.setConverterState_interrupts (c : ConverterState) :
    (s.setConverterState c).interrupts = s.interrupts := rfl
@[simp] theorem State.setConverterState_port (c : ConverterState) : (s.setConverterState c).port = s.port := rfl
@[simp] theorem State.setConverterState_rstLow (c : ConverterState) : (s.setConverterState c).rstLow = s.rstLow := rfl
@[simp] theorem State.setConverterState_transit (c : ConverterState) :
    (s.setConverterState c).transit = s.transit := rfl
@[simp] theorem State.setConverterState_environment (c : ConverterState) :
    (s.setConverterState c).environment = s.environment := rfl
@[simp] theorem State.setConverterState_pending (c : ConverterState) :
    (s.setConverterState c).pending = s.pending := rfl

/-! ### State.setCalReport -/

@[simp] theorem State.setCalReport_plan (r : CalReport) : (s.setCalReport r).plan = s.plan := rfl
@[simp] theorem State.setCalReport_validator (r : CalReport) : (s.setCalReport r).validator = s.validator := rfl
@[simp] theorem State.setCalReport_timebase (r : CalReport) : (s.setCalReport r).timebase = s.timebase := rfl
@[simp] theorem State.setCalReport_engine (r : CalReport) : (s.setCalReport r).engine = s.engine := rfl
@[simp] theorem State.setCalReport_lines (r : CalReport) : (s.setCalReport r).lines = s.lines := rfl
@[simp] theorem State.setCalReport_groups (r : CalReport) : (s.setCalReport r).groups = s.groups := rfl
@[simp] theorem State.setCalReport_tripIndicator (r : CalReport) :
    (s.setCalReport r).tripIndicator = s.tripIndicator := rfl
@[simp] theorem State.setCalReport_sampler (r : CalReport) : (s.setCalReport r).sampler = s.sampler := rfl
@[simp] theorem State.setCalReport_converter (r : CalReport) :
    (s.setCalReport r).converter = { s.converter with report := r } := rfl
@[simp] theorem State.setCalReport_ring (r : CalReport) : (s.setCalReport r).ring = s.ring := rfl
@[simp] theorem State.setCalReport_trip (r : CalReport) : (s.setCalReport r).trip = s.trip := rfl
@[simp] theorem State.setCalReport_interrupts (r : CalReport) : (s.setCalReport r).interrupts = s.interrupts := rfl
@[simp] theorem State.setCalReport_port (r : CalReport) : (s.setCalReport r).port = s.port := rfl
@[simp] theorem State.setCalReport_rstLow (r : CalReport) : (s.setCalReport r).rstLow = s.rstLow := rfl
@[simp] theorem State.setCalReport_transit (r : CalReport) : (s.setCalReport r).transit = s.transit := rfl
@[simp] theorem State.setCalReport_environment (r : CalReport) : (s.setCalReport r).environment = s.environment := rfl
@[simp] theorem State.setCalReport_pending (r : CalReport) : (s.setCalReport r).pending = s.pending := rfl

/-! ### State.startConversion -/

@[simp] theorem State.startConversion_plan (r : Request) : (s.startConversion r).plan = s.plan := rfl
@[simp] theorem State.startConversion_validator (r : Request) : (s.startConversion r).validator = s.validator := rfl
@[simp] theorem State.startConversion_timebase (r : Request) : (s.startConversion r).timebase = s.timebase := rfl
@[simp] theorem State.startConversion_engine (r : Request) : (s.startConversion r).engine = s.engine := rfl
@[simp] theorem State.startConversion_lines (r : Request) : (s.startConversion r).lines = s.lines := rfl
@[simp] theorem State.startConversion_groups (r : Request) : (s.startConversion r).groups = s.groups := rfl
@[simp] theorem State.startConversion_tripIndicator (r : Request) :
    (s.startConversion r).tripIndicator = s.tripIndicator := rfl
@[simp] theorem State.startConversion_sampler (r : Request) : (s.startConversion r).sampler = s.sampler := rfl
@[simp] theorem State.startConversion_converter (r : Request) : (s.startConversion r).converter = 
      { s.converter with state := .converting ⟨r, s.rawValue r.channel, s.waitOf r⟩, since := s.now } := rfl
@[simp] theorem State.startConversion_ring (r : Request) : (s.startConversion r).ring = s.ring := rfl
@[simp] theorem State.startConversion_trip (r : Request) : (s.startConversion r).trip = s.trip := rfl
@[simp] theorem State.startConversion_interrupts (r : Request) :
    (s.startConversion r).interrupts = s.interrupts := rfl
@[simp] theorem State.startConversion_port (r : Request) : (s.startConversion r).port = s.port := rfl
@[simp] theorem State.startConversion_rstLow (r : Request) : (s.startConversion r).rstLow = s.rstLow := rfl
@[simp] theorem State.startConversion_transit (r : Request) : (s.startConversion r).transit = s.transit := rfl
@[simp] theorem State.startConversion_pending (r : Request) : (s.startConversion r).pending = s.pending := rfl

/-! ### State.startTrial -/

@[simp] theorem State.startTrial_plan (kept bit : Nat) : (s.startTrial kept bit).plan = s.plan := rfl
@[simp] theorem State.startTrial_validator (kept bit : Nat) : (s.startTrial kept bit).validator = s.validator := rfl
@[simp] theorem State.startTrial_timebase (kept bit : Nat) : (s.startTrial kept bit).timebase = s.timebase := rfl
@[simp] theorem State.startTrial_engine (kept bit : Nat) : (s.startTrial kept bit).engine = s.engine := rfl
@[simp] theorem State.startTrial_lines (kept bit : Nat) : (s.startTrial kept bit).lines = s.lines := rfl
@[simp] theorem State.startTrial_groups (kept bit : Nat) : (s.startTrial kept bit).groups = s.groups := rfl
@[simp] theorem State.startTrial_tripIndicator (kept bit : Nat) :
    (s.startTrial kept bit).tripIndicator = s.tripIndicator := rfl
@[simp] theorem State.startTrial_sampler (kept bit : Nat) : (s.startTrial kept bit).sampler = s.sampler := rfl
@[simp] theorem State.startTrial_converter (kept bit : Nat) : (s.startTrial kept bit).converter = 
      { s.converter with state := .calibrating kept bit (s.rawValue mref), since := s.now } := rfl
@[simp] theorem State.startTrial_ring (kept bit : Nat) : (s.startTrial kept bit).ring = s.ring := rfl
@[simp] theorem State.startTrial_trip (kept bit : Nat) : (s.startTrial kept bit).trip = s.trip := rfl
@[simp] theorem State.startTrial_interrupts (kept bit : Nat) :
    (s.startTrial kept bit).interrupts = s.interrupts := rfl
@[simp] theorem State.startTrial_port (kept bit : Nat) : (s.startTrial kept bit).port = s.port := rfl
@[simp] theorem State.startTrial_rstLow (kept bit : Nat) : (s.startTrial kept bit).rstLow = s.rstLow := rfl
@[simp] theorem State.startTrial_transit (kept bit : Nat) : (s.startTrial kept bit).transit = s.transit := rfl
@[simp] theorem State.startTrial_pending (kept bit : Nat) : (s.startTrial kept bit).pending = s.pending := rfl

/-! ### State.beginCalibration -/

@[simp] theorem State.beginCalibration_plan : (s.beginCalibration).plan = s.plan := rfl
@[simp] theorem State.beginCalibration_validator : (s.beginCalibration).validator = s.validator := rfl
@[simp] theorem State.beginCalibration_timebase : (s.beginCalibration).timebase = s.timebase := rfl
@[simp] theorem State.beginCalibration_engine : (s.beginCalibration).engine = s.engine := rfl
@[simp] theorem State.beginCalibration_lines : (s.beginCalibration).lines = s.lines := rfl
@[simp] theorem State.beginCalibration_groups : (s.beginCalibration).groups = s.groups := rfl
@[simp] theorem State.beginCalibration_tripIndicator : (s.beginCalibration).tripIndicator = s.tripIndicator := rfl
@[simp] theorem State.beginCalibration_sampler : (s.beginCalibration).sampler = s.sampler := rfl
@[simp] theorem State.beginCalibration_converter : (s.beginCalibration).converter = 
      { s.converter with state := .calibrating 0 4 (s.rawValue mref), since := s.now } := rfl
@[simp] theorem State.beginCalibration_ring : (s.beginCalibration).ring = s.ring := rfl
@[simp] theorem State.beginCalibration_trip : (s.beginCalibration).trip = s.trip := rfl
@[simp] theorem State.beginCalibration_interrupts : (s.beginCalibration).interrupts = s.interrupts := rfl
@[simp] theorem State.beginCalibration_port : (s.beginCalibration).port = s.port := rfl
@[simp] theorem State.beginCalibration_rstLow : (s.beginCalibration).rstLow = s.rstLow := rfl
@[simp] theorem State.beginCalibration_transit : (s.beginCalibration).transit = s.transit := rfl
@[simp] theorem State.beginCalibration_pending : (s.beginCalibration).pending = s.pending := rfl

/-! ### State.flushSampling -/

@[simp] theorem State.flushSampling_plan : (s.flushSampling).plan = s.plan := rfl
@[simp] theorem State.flushSampling_validator : (s.flushSampling).validator = s.validator := rfl
@[simp] theorem State.flushSampling_timebase : (s.flushSampling).timebase = s.timebase := rfl
@[simp] theorem State.flushSampling_engine : (s.flushSampling).engine = s.engine := rfl
@[simp] theorem State.flushSampling_lines : (s.flushSampling).lines = s.lines := rfl
@[simp] theorem State.flushSampling_groups : (s.flushSampling).groups = s.groups := rfl
@[simp] theorem State.flushSampling_tripIndicator : (s.flushSampling).tripIndicator = s.tripIndicator := rfl
@[simp] theorem State.flushSampling_sampler : (s.flushSampling).sampler = { s.sampler with queue := [] } := rfl
@[simp] theorem State.flushSampling_ring : (s.flushSampling).ring = s.ring := rfl
@[simp] theorem State.flushSampling_trip : (s.flushSampling).trip = s.trip := rfl
@[simp] theorem State.flushSampling_interrupts : (s.flushSampling).interrupts = s.interrupts := rfl
@[simp] theorem State.flushSampling_port : (s.flushSampling).port = s.port := rfl
@[simp] theorem State.flushSampling_rstLow : (s.flushSampling).rstLow = s.rstLow := rfl
@[simp] theorem State.flushSampling_transit : (s.flushSampling).transit = s.transit := rfl
@[simp] theorem State.flushSampling_environment : (s.flushSampling).environment = s.environment := rfl
@[simp] theorem State.flushSampling_pending : (s.flushSampling).pending = s.pending := rfl

/-! ### State.setFaultInput -/

@[simp] theorem State.setFaultInput_plan (i : Fin 2) (f : FaultInput) : (s.setFaultInput i f).plan = s.plan := rfl
@[simp] theorem State.setFaultInput_validator (i : Fin 2) (f : FaultInput) :
    (s.setFaultInput i f).validator = s.validator := rfl
@[simp] theorem State.setFaultInput_timebase (i : Fin 2) (f : FaultInput) :
    (s.setFaultInput i f).timebase = s.timebase := rfl
@[simp] theorem State.setFaultInput_engine (i : Fin 2) (f : FaultInput) :
    (s.setFaultInput i f).engine = s.engine := rfl
@[simp] theorem State.setFaultInput_lines (i : Fin 2) (f : FaultInput) : (s.setFaultInput i f).lines = s.lines := rfl
@[simp] theorem State.setFaultInput_groups (i : Fin 2) (f : FaultInput) :
    (s.setFaultInput i f).groups = s.groups := rfl
@[simp] theorem State.setFaultInput_tripIndicator (i : Fin 2) (f : FaultInput) :
    (s.setFaultInput i f).tripIndicator = s.tripIndicator := rfl
@[simp] theorem State.setFaultInput_sampler (i : Fin 2) (f : FaultInput) :
    (s.setFaultInput i f).sampler = s.sampler := rfl
@[simp] theorem State.setFaultInput_converter (i : Fin 2) (f : FaultInput) :
    (s.setFaultInput i f).converter = s.converter := rfl
@[simp] theorem State.setFaultInput_ring (i : Fin 2) (f : FaultInput) : (s.setFaultInput i f).ring = s.ring := rfl
@[simp] theorem State.setFaultInput_trip (i : Fin 2) (f : FaultInput) :
    (s.setFaultInput i f).trip = { s.trip with faults := s.trip.faults.set i f } := rfl
@[simp] theorem State.setFaultInput_interrupts (i : Fin 2) (f : FaultInput) :
    (s.setFaultInput i f).interrupts = s.interrupts := rfl
@[simp] theorem State.setFaultInput_port (i : Fin 2) (f : FaultInput) : (s.setFaultInput i f).port = s.port := rfl
@[simp] theorem State.setFaultInput_rstLow (i : Fin 2) (f : FaultInput) :
    (s.setFaultInput i f).rstLow = s.rstLow := rfl
@[simp] theorem State.setFaultInput_transit (i : Fin 2) (f : FaultInput) :
    (s.setFaultInput i f).transit = s.transit := rfl
@[simp] theorem State.setFaultInput_environment (i : Fin 2) (f : FaultInput) :
    (s.setFaultInput i f).environment = s.environment := rfl
@[simp] theorem State.setFaultInput_pending (i : Fin 2) (f : FaultInput) :
    (s.setFaultInput i f).pending = s.pending := rfl

/-! ### State.stampSample -/

@[simp] theorem State.stampSample_plan (i : Fin 2) : (s.stampSample i).plan = s.plan := rfl
@[simp] theorem State.stampSample_validator (i : Fin 2) : (s.stampSample i).validator = s.validator := rfl
@[simp] theorem State.stampSample_timebase (i : Fin 2) : (s.stampSample i).timebase = s.timebase := rfl
@[simp] theorem State.stampSample_engine (i : Fin 2) : (s.stampSample i).engine = s.engine := rfl
@[simp] theorem State.stampSample_lines (i : Fin 2) : (s.stampSample i).lines = s.lines := rfl
@[simp] theorem State.stampSample_groups (i : Fin 2) : (s.stampSample i).groups = s.groups := rfl
@[simp] theorem State.stampSample_tripIndicator (i : Fin 2) : (s.stampSample i).tripIndicator = s.tripIndicator := rfl
@[simp] theorem State.stampSample_sampler (i : Fin 2) : (s.stampSample i).sampler = s.sampler := rfl
@[simp] theorem State.stampSample_converter (i : Fin 2) : (s.stampSample i).converter = s.converter := rfl
@[simp] theorem State.stampSample_ring (i : Fin 2) : (s.stampSample i).ring = s.ring := rfl
@[simp] theorem State.stampSample_interrupts (i : Fin 2) : (s.stampSample i).interrupts = s.interrupts := rfl
@[simp] theorem State.stampSample_port (i : Fin 2) : (s.stampSample i).port = s.port := rfl
@[simp] theorem State.stampSample_rstLow (i : Fin 2) : (s.stampSample i).rstLow = s.rstLow := rfl
@[simp] theorem State.stampSample_transit (i : Fin 2) : (s.stampSample i).transit = s.transit := rfl
@[simp] theorem State.stampSample_environment (i : Fin 2) : (s.stampSample i).environment = s.environment := rfl
@[simp] theorem State.stampSample_pending (i : Fin 2) : (s.stampSample i).pending = s.pending := rfl

/-! ### State.qualify -/

@[simp] theorem State.qualify_plan (i : Fin 2) : (s.qualify i).plan = s.plan := rfl
@[simp] theorem State.qualify_validator (i : Fin 2) : (s.qualify i).validator = s.validator := rfl
@[simp] theorem State.qualify_timebase (i : Fin 2) : (s.qualify i).timebase = s.timebase := rfl
@[simp] theorem State.qualify_engine (i : Fin 2) : (s.qualify i).engine = s.engine := rfl
@[simp] theorem State.qualify_lines (i : Fin 2) : (s.qualify i).lines = s.lines := rfl
@[simp] theorem State.qualify_groups (i : Fin 2) : (s.qualify i).groups = s.groups := rfl
@[simp] theorem State.qualify_tripIndicator (i : Fin 2) : (s.qualify i).tripIndicator = s.tripIndicator := rfl
@[simp] theorem State.qualify_sampler (i : Fin 2) : (s.qualify i).sampler = s.sampler := rfl
@[simp] theorem State.qualify_converter (i : Fin 2) : (s.qualify i).converter = s.converter := rfl
@[simp] theorem State.qualify_ring (i : Fin 2) : (s.qualify i).ring = s.ring := rfl
@[simp] theorem State.qualify_interrupts (i : Fin 2) : (s.qualify i).interrupts = s.interrupts := rfl
@[simp] theorem State.qualify_port (i : Fin 2) : (s.qualify i).port = s.port := rfl
@[simp] theorem State.qualify_rstLow (i : Fin 2) : (s.qualify i).rstLow = s.rstLow := rfl
@[simp] theorem State.qualify_environment (i : Fin 2) : (s.qualify i).environment = s.environment := rfl
@[simp] theorem State.qualify_pending (i : Fin 2) : (s.qualify i).pending = s.pending := rfl

/-! ### State.zeroCounters -/

@[simp] theorem State.zeroCounters_plan : (s.zeroCounters).plan = s.plan := rfl
@[simp] theorem State.zeroCounters_validator : (s.zeroCounters).validator = s.validator := rfl
@[simp] theorem State.zeroCounters_timebase :
    (s.zeroCounters).timebase = { s.timebase with skipCount := 0, missCount := 0 } := rfl
@[simp] theorem State.zeroCounters_engine : (s.zeroCounters).engine = s.engine := rfl
@[simp] theorem State.zeroCounters_lines : (s.zeroCounters).lines = s.lines := rfl
@[simp] theorem State.zeroCounters_tripIndicator : (s.zeroCounters).tripIndicator = s.tripIndicator := rfl
@[simp] theorem State.zeroCounters_converter : (s.zeroCounters).converter = s.converter := rfl
@[simp] theorem State.zeroCounters_ring : (s.zeroCounters).ring = { s.ring with lost := 0 } := rfl
@[simp] theorem State.zeroCounters_trip : (s.zeroCounters).trip = { s.trip with overflow := 0 } := rfl
@[simp] theorem State.zeroCounters_interrupts : (s.zeroCounters).interrupts = s.interrupts := rfl
@[simp] theorem State.zeroCounters_port : (s.zeroCounters).port = s.port := rfl
@[simp] theorem State.zeroCounters_rstLow : (s.zeroCounters).rstLow = s.rstLow := rfl
@[simp] theorem State.zeroCounters_transit : (s.zeroCounters).transit = s.transit := rfl
@[simp] theorem State.zeroCounters_environment : (s.zeroCounters).environment = s.environment := rfl
@[simp] theorem State.zeroCounters_pending : (s.zeroCounters).pending = s.pending := rfl

/-! ### State.resetLines -/

@[simp] theorem State.resetLines_plan : (s.resetLines).plan = s.plan := rfl
@[simp] theorem State.resetLines_validator : (s.resetLines).validator = s.validator := rfl
@[simp] theorem State.resetLines_timebase : (s.resetLines).timebase = s.timebase := rfl
@[simp] theorem State.resetLines_engine : (s.resetLines).engine = s.engine := rfl
@[simp] theorem State.resetLines_lines : (s.resetLines).lines = mapTable s.lines (Line.softReset s.tripIndicator) := rfl
@[simp] theorem State.resetLines_groups : (s.resetLines).groups = mapTable s.groups InterlockGroup.softReset := rfl
@[simp] theorem State.resetLines_tripIndicator : (s.resetLines).tripIndicator = s.tripIndicator := rfl
@[simp] theorem State.resetLines_sampler : (s.resetLines).sampler = s.sampler := rfl
@[simp] theorem State.resetLines_converter : (s.resetLines).converter = s.converter := rfl
@[simp] theorem State.resetLines_ring : (s.resetLines).ring = s.ring := rfl
@[simp] theorem State.resetLines_trip : (s.resetLines).trip = s.trip := rfl
@[simp] theorem State.resetLines_interrupts : (s.resetLines).interrupts = s.interrupts := rfl
@[simp] theorem State.resetLines_port : (s.resetLines).port = s.port := rfl
@[simp] theorem State.resetLines_rstLow : (s.resetLines).rstLow = s.rstLow := rfl
@[simp] theorem State.resetLines_environment : (s.resetLines).environment = s.environment := rfl
@[simp] theorem State.resetLines_pending : (s.resetLines).pending = s.pending := rfl

/-! ### State.afterWord -/

@[simp] theorem State.afterWord_plan (a : Address) : (s.afterWord a).plan = s.plan := rfl
@[simp] theorem State.afterWord_validator (a : Address) : (s.afterWord a).validator = s.validator := rfl
@[simp] theorem State.afterWord_timebase (a : Address) : (s.afterWord a).timebase = s.timebase := rfl
@[simp] theorem State.afterWord_engine (a : Address) : (s.afterWord a).engine = s.engine := rfl
@[simp] theorem State.afterWord_lines (a : Address) : (s.afterWord a).lines = s.lines := rfl
@[simp] theorem State.afterWord_groups (a : Address) : (s.afterWord a).groups = s.groups := rfl
@[simp] theorem State.afterWord_tripIndicator (a : Address) : (s.afterWord a).tripIndicator = s.tripIndicator := rfl
@[simp] theorem State.afterWord_sampler (a : Address) : (s.afterWord a).sampler = s.sampler := rfl
@[simp] theorem State.afterWord_converter (a : Address) : (s.afterWord a).converter = s.converter := rfl
@[simp] theorem State.afterWord_ring (a : Address) : (s.afterWord a).ring = s.ring := rfl
@[simp] theorem State.afterWord_trip (a : Address) : (s.afterWord a).trip = s.trip := rfl
@[simp] theorem State.afterWord_interrupts (a : Address) : (s.afterWord a).interrupts = s.interrupts := rfl
@[simp] theorem State.afterWord_port (a : Address) :
    (s.afterWord a).port = { s.port with phase := .writing (a + 1#7), readWord := 0#16 } := rfl
@[simp] theorem State.afterWord_rstLow (a : Address) : (s.afterWord a).rstLow = s.rstLow := rfl
@[simp] theorem State.afterWord_transit (a : Address) : (s.afterWord a).transit = s.transit := rfl
@[simp] theorem State.afterWord_environment (a : Address) : (s.afterWord a).environment = s.environment := rfl
@[simp] theorem State.afterWord_pending (a : Address) : (s.afterWord a).pending = s.pending := rfl

/-! ### State.acted -/

@[simp] theorem State.acted_plan (a : Address) (code : ResultCode) : (s.acted a code).plan = s.plan := rfl
@[simp] theorem State.acted_validator (a : Address) (code : ResultCode) :
    (s.acted a code).validator = s.validator := rfl
@[simp] theorem State.acted_timebase (a : Address) (code : ResultCode) : (s.acted a code).timebase = s.timebase := rfl
@[simp] theorem State.acted_engine (a : Address) (code : ResultCode) : (s.acted a code).engine = s.engine := rfl
@[simp] theorem State.acted_lines (a : Address) (code : ResultCode) : (s.acted a code).lines = s.lines := rfl
@[simp] theorem State.acted_groups (a : Address) (code : ResultCode) : (s.acted a code).groups = s.groups := rfl
@[simp] theorem State.acted_tripIndicator (a : Address) (code : ResultCode) :
    (s.acted a code).tripIndicator = s.tripIndicator := rfl
@[simp] theorem State.acted_sampler (a : Address) (code : ResultCode) : (s.acted a code).sampler = s.sampler := rfl
@[simp] theorem State.acted_converter (a : Address) (code : ResultCode) :
    (s.acted a code).converter = s.converter := rfl
@[simp] theorem State.acted_ring (a : Address) (code : ResultCode) : (s.acted a code).ring = s.ring := rfl
@[simp] theorem State.acted_trip (a : Address) (code : ResultCode) : (s.acted a code).trip = s.trip := rfl
@[simp] theorem State.acted_interrupts (a : Address) (code : ResultCode) :
    (s.acted a code).interrupts = s.interrupts := rfl
@[simp] theorem State.acted_port (a : Address) (code : ResultCode) : (s.acted a code).port = 
      { s.port with phase := .writing (a + 1#7), readWord := 0#16, code := code, actAddress := a } := rfl
@[simp] theorem State.acted_rstLow (a : Address) (code : ResultCode) : (s.acted a code).rstLow = s.rstLow := rfl
@[simp] theorem State.acted_transit (a : Address) (code : ResultCode) : (s.acted a code).transit = s.transit := rfl
@[simp] theorem State.acted_environment (a : Address) (code : ResultCode) :
    (s.acted a code).environment = s.environment := rfl
@[simp] theorem State.acted_pending (a : Address) (code : ResultCode) : (s.acted a code).pending = s.pending := rfl

/-! ### State.withParams -/

@[simp] theorem State.withParams_plan (p0 p1 p2 p3 : Word) : (s.withParams p0 p1 p2 p3).plan = s.plan := rfl
@[simp] theorem State.withParams_validator (p0 p1 p2 p3 : Word) :
    (s.withParams p0 p1 p2 p3).validator = s.validator := rfl
@[simp] theorem State.withParams_timebase (p0 p1 p2 p3 : Word) :
    (s.withParams p0 p1 p2 p3).timebase = s.timebase := rfl
@[simp] theorem State.withParams_engine (p0 p1 p2 p3 : Word) : (s.withParams p0 p1 p2 p3).engine = s.engine := rfl
@[simp] theorem State.withParams_lines (p0 p1 p2 p3 : Word) : (s.withParams p0 p1 p2 p3).lines = s.lines := rfl
@[simp] theorem State.withParams_groups (p0 p1 p2 p3 : Word) : (s.withParams p0 p1 p2 p3).groups = s.groups := rfl
@[simp] theorem State.withParams_tripIndicator (p0 p1 p2 p3 : Word) :
    (s.withParams p0 p1 p2 p3).tripIndicator = s.tripIndicator := rfl
@[simp] theorem State.withParams_sampler (p0 p1 p2 p3 : Word) : (s.withParams p0 p1 p2 p3).sampler = s.sampler := rfl
@[simp] theorem State.withParams_converter (p0 p1 p2 p3 : Word) :
    (s.withParams p0 p1 p2 p3).converter = s.converter := rfl
@[simp] theorem State.withParams_ring (p0 p1 p2 p3 : Word) : (s.withParams p0 p1 p2 p3).ring = s.ring := rfl
@[simp] theorem State.withParams_trip (p0 p1 p2 p3 : Word) : (s.withParams p0 p1 p2 p3).trip = s.trip := rfl
@[simp] theorem State.withParams_interrupts (p0 p1 p2 p3 : Word) :
    (s.withParams p0 p1 p2 p3).interrupts = s.interrupts := rfl
@[simp] theorem State.withParams_port (p0 p1 p2 p3 : Word) :
    (s.withParams p0 p1 p2 p3).port = { s.port with p0 := p0, p1 := p1, p2 := p2, p3 := p3 } := rfl
@[simp] theorem State.withParams_rstLow (p0 p1 p2 p3 : Word) : (s.withParams p0 p1 p2 p3).rstLow = s.rstLow := rfl
@[simp] theorem State.withParams_transit (p0 p1 p2 p3 : Word) : (s.withParams p0 p1 p2 p3).transit = s.transit := rfl
@[simp] theorem State.withParams_environment (p0 p1 p2 p3 : Word) :
    (s.withParams p0 p1 p2 p3).environment = s.environment := rfl
@[simp] theorem State.withParams_pending (p0 p1 p2 p3 : Word) : (s.withParams p0 p1 p2 p3).pending = s.pending := rfl

/-! ### State.withFlags -/

@[simp] theorem State.withFlags_plan (flags : BitVec 13) : (s.withFlags flags).plan = s.plan := rfl
@[simp] theorem State.withFlags_validator (flags : BitVec 13) : (s.withFlags flags).validator = s.validator := rfl
@[simp] theorem State.withFlags_timebase (flags : BitVec 13) : (s.withFlags flags).timebase = s.timebase := rfl
@[simp] theorem State.withFlags_engine (flags : BitVec 13) : (s.withFlags flags).engine = s.engine := rfl
@[simp] theorem State.withFlags_lines (flags : BitVec 13) : (s.withFlags flags).lines = s.lines := rfl
@[simp] theorem State.withFlags_groups (flags : BitVec 13) : (s.withFlags flags).groups = s.groups := rfl
@[simp] theorem State.withFlags_tripIndicator (flags : BitVec 13) :
    (s.withFlags flags).tripIndicator = s.tripIndicator := rfl
@[simp] theorem State.withFlags_sampler (flags : BitVec 13) : (s.withFlags flags).sampler = s.sampler := rfl
@[simp] theorem State.withFlags_converter (flags : BitVec 13) : (s.withFlags flags).converter = s.converter := rfl
@[simp] theorem State.withFlags_ring (flags : BitVec 13) : (s.withFlags flags).ring = s.ring := rfl
@[simp] theorem State.withFlags_trip (flags : BitVec 13) : (s.withFlags flags).trip = s.trip := rfl
@[simp] theorem State.withFlags_interrupts (flags : BitVec 13) :
    (s.withFlags flags).interrupts = { s.interrupts with flags := s.interrupts.flags ||| flags } := rfl
@[simp] theorem State.withFlags_port (flags : BitVec 13) : (s.withFlags flags).port = s.port := rfl
@[simp] theorem State.withFlags_rstLow (flags : BitVec 13) : (s.withFlags flags).rstLow = s.rstLow := rfl
@[simp] theorem State.withFlags_transit (flags : BitVec 13) : (s.withFlags flags).transit = s.transit := rfl
@[simp] theorem State.withFlags_environment (flags : BitVec 13) :
    (s.withFlags flags).environment = s.environment := rfl
@[simp] theorem State.withFlags_pending (flags : BitVec 13) : (s.withFlags flags).pending = s.pending := rfl

end Sys2Proof.Machine
end

