-- ==== Sys2Proof/Laws/Guard.lean ====
section
/-! SUPPORT. What the line block can do, said once: every operation of the guard is a sequence of `LineMove`s, so that a
claim about all of them is proved for one move at a time. -/

namespace Sys2Proof.Machine

/-! ### Records of lines and groups -/

@[simp] theorem State.setLine_line (s : State) (i : Fin 16) (l : Line) (j : Nat) (h : j < 16) :
    (s.setLine i l).lines[j] = if i.val = j then l else s.lines[j] := by
  simp [State.setLine, Vector.getElem_set]

@[simp] theorem State.setMode_line (s : State) (i : Fin 16) (m : LineMode) (j : Nat) (h : j < 16) :
    (s.setMode i m).lines[j] = if i.val = j then { s.lines[j] with mode := m } else s.lines[j] := by
  simp only [State.setMode, State.setLine_line]
  split
  · rename_i e; subst e; rfl
  · rfl

@[simp] theorem State.setGroupRecord_group (s : State) (g : Fin 6) (r : InterlockGroup) (k : Nat) (h : k < 6) :
    (s.setGroupRecord g r).groups[k] = if g.val = k then r else s.groups[k] := by
  simp [State.setGroupRecord, Vector.getElem_set]

theorem State.setLine_self (s : State) (i : Fin 16) (l : Line) : (s.setLine i l).lines[i] = l := by simp

theorem State.setLine_other (s : State) {i j : Fin 16} (l : Line) (h : i ≠ j) :
    (s.setLine i l).lines[j] = s.lines[j] := by
  simp [Fin.val_ne_of_ne h]

theorem State.setGroupRecord_self (s : State) (g : Fin 6) (r : InterlockGroup) : (s.setGroupRecord g r).groups[g] = r := by
  simp

theorem State.setGroupRecord_other (s : State) {g k : Fin 6} (r : InterlockGroup) (h : g ≠ k) :
    (s.setGroupRecord g r).groups[k] = s.groups[k] := by
  simp [Fin.val_ne_of_ne h]

theorem mem_allLines (i : Fin 16) : i ∈ allLines := by revert i; decide

theorem mem_allGroups (g : Fin 6) : g ∈ allGroups := by revert g; decide

theorem State.mem_members (s : State) (g : Fin 6) (i : Fin 16) : i ∈ s.members g ↔ s.lines[i].group = some g := by
  simp [State.members, mem_allLines]

@[simp] theorem Line.atLevel_level (l : Line) (v : Level) : (l.atLevel v).level = v := rfl
@[simp] theorem Line.atLevel_group (l : Line) (v : Level) : (l.atLevel v).group = l.group := rfl
@[simp] theorem Line.atLevel_mode (l : Line) (v : Level) : (l.atLevel v).mode = l.mode := rfl
@[simp] theorem Line.atLevel_polarity (l : Line) (v : Level) : (l.atLevel v).polarity = l.polarity := rfl
@[simp] theorem Line.atLevel_restLevel (l : Line) (v : Level) : (l.atLevel v).restLevel = l.restLevel := rfl
@[simp] theorem Line.atLevel_safeLevel (l : Line) (v : Level) : (l.atLevel v).safeLevel = l.safeLevel := rfl
theorem Line.atLevel_age (l : Line) (v : Level) :
    (l.atLevel v).age = if l.level = .active ∧ v ≠ .active then 0 else l.age := rfl
@[simp] theorem Line.atLevel_active_age (l : Line) : (l.atLevel .active).age = l.age := by simp [Line.atLevel_age]

/-- The clear rise of R122: no other member is ACTIVE and every other member's fall age is at least the gap. -/
theorem State.clear_iff (s : State) (x : Fin 16) :
    s.clear x = true ↔ ∀ g, s.lines[x].group = some g → ∀ y, y ≠ x → s.lines[y].group = some g →
      s.lines[y].level ≠ .active ∧ s.groups[g].gap ≤ s.lines[y].age := by
  unfold State.clear
  split
  · rename_i h; simp [-Fin.getElem_fin, h]
  · rename_i g h
    simp only [List.all_eq_true, State.mem_members, h, Option.some.injEq]
    constructor
    · intro hall g' hg y hne hy
      subst hg
      have := hall y hy
      simpa [hne] using this
    · intro hall y hy
      by_cases hne : y = x
      · simp [hne]
      · have := hall g rfl y hne hy
        simpa [hne] using this

/-! ### The moves -/

/-- One thing the line block can do to a level, a queue, a counter, the DEFER flag or the trip controller. A line
rises only when the rise is clear (R122); gaps, policies, limits, groups and modes do not change. -/
inductive LineMove (s : State) : State → Prop
  /-- A line takes a level that is not ACTIVE. -/
  | lower (x : Fin 16) (level : Level) (h : level ≠ .active) : LineMove s (s.setLine x (s.lines[x].atLevel level))
  /-- A line whose rise is clear becomes ACTIVE. -/
  | raise (x : Fin 16) (h : s.clear x = true) : LineMove s (s.setLine x (s.lines[x].atLevel .active))
  /-- A queue changes and the counters of its group stay or increase by one. -/
  | queue (g : Fin 6) (q : List Waiting) (d a : Nat)
      (hd : d = s.groups[g].deferred ∨ d = bump8 s.groups[g].deferred)
      (ha : a = s.groups[g].abandoned ∨ a = bump8 s.groups[g].abandoned) :
      LineMove s (s.setGroupRecord g { s.groups[g] with queue := q, deferred := d, abandoned := a })
  /-- DEFER is set. -/
  | defer : LineMove s (s.setFlag .defer)
  /-- An INTERLOCK source is sent. -/
  | source (g : Fin 6) : LineMove s (s.sendSource (.interlock g))

/-- A sequence of moves. -/
abbrev LineMoves : State → State → Prop := Relation.ReflTransGen LineMove

theorem LineMoves.one {s t : State} (h : LineMove s t) : LineMoves s t := .single h

/-- A line takes a level it may take: not ACTIVE, or clear. -/
theorem LineMoves.set (s : State) (x : Fin 16) (level : Level) (h : level = .active → s.clear x = true) :
    LineMoves s (s.setLine x (s.lines[x].atLevel level)) := by
  by_cases ha : level = .active
  · subst ha; exact .single (.raise x (h rfl))
  · exact .single (.lower x level ha)

theorem State.examineHead_moves (s : State) (g : Fin 6) : LineMoves s (s.examineHead g) := by
  unfold State.examineHead
  split
  · exact .refl
  · rename_i h rest _
    split
    · rename_i hc
      refine .tail (.single (.raise h.line hc)) ?_
      have := LineMove.queue (s := s.setLine h.line (s.lines[h.line].atLevel .active)) g rest _ _ (.inl rfl) (.inl rfl)
      simpa using this
    · exact .refl

theorem State.examineFor_moves (s : State) (x : Fin 16) : LineMoves s (s.examineFor x) := by
  unfold State.examineFor
  split
  · exact .refl
  · exact State.examineHead_moves _ _

/-- A line takes a level that is not ACTIVE, or that it may take because its rise is clear. -/
theorem State.moveLine_moves (s : State) (x : Fin 16) (level : Level) (h : level = .active → s.clear x = true) :
    LineMoves s (s.moveLine x level) := by
  unfold State.moveLine
  split
  · exact (LineMoves.set s x level h).trans (State.examineFor_moves _ _)
  · exact LineMoves.set s x level h

theorem State.removeWaiting_moves (s : State) (x : Fin 16) : LineMoves s (s.removeWaiting x) := by
  unfold State.removeWaiting
  split
  · exact .refl
  · rename_i g _
    have h1 : LineMoves s (s.setGroupRecord g
        { s.groups[g] with queue := s.groups[g].queue.filter fun w => w.line != x }) :=
      .single (.queue g _ _ _ (.inl rfl) (.inl rfl))
    split
    · exact h1.trans (State.examineHead_moves _ _)
    · exact .refl

theorem State.deferRise_moves (s : State) (g : Fin 6) (x : Fin 16) : LineMoves s (s.deferRise g x) := by
  unfold State.deferRise
  simp only
  split
  · exact .tail (.single (.queue g _ _ _ (.inr rfl) (.inr rfl))) .defer
  · exact .single (.queue g _ _ _ (.inr rfl) (.inl rfl))

theorem State.clear_of_ungrouped (s : State) (x : Fin 16) (h : s.lines[x].group = none) : s.clear x = true := by
  simp [-Fin.getElem_fin, State.clear_iff, h]

theorem State.judgeRise_moves (s : State) (x : Fin 16) : LineMoves s (s.judgeRise x) := by
  unfold State.judgeRise
  split
  · exact .refl
  · split
    · rename_i hg
      exact State.moveLine_moves _ _ _ fun _ => s.clear_of_ungrouped x hg
    · rename_i g hg
      split
      · exact .refl
      · split
        · rename_i hc
          exact State.moveLine_moves _ _ _ fun _ => by simp_all
        · split
          · exact State.deferRise_moves _ _ _
          · exact .single (.source g)

theorem State.takeClaim_moves (s : State) (c : Claim) (hc : c.Sent) : LineMoves s (s.takeClaim c) := by
  unfold State.takeClaim
  split
  · exact .refl
  · cases c with
    | fall x => exact (State.removeWaiting_moves _ _).trans (State.moveLine_moves _ _ _ (by simp))
    | startFall x target =>
      exact (State.removeWaiting_moves _ _).trans (State.moveLine_moves _ _ _ fun h => absurd h hc)
    | rise x => exact State.judgeRise_moves _ _
    | startRise x => exact (State.removeWaiting_moves _ _).trans (State.judgeRise_moves _ _)

theorem State.takeClaimStep_moves (s : State) (claims : List Claim) (hc : ∀ c ∈ claims, c.Sent) :
    LineMoves s (s.takeClaimStep claims) := by
  unfold State.takeClaimStep
  induction claims generalizing s with
  | nil => exact .refl
  | cons c rest ih =>
    exact (s.takeClaim_moves c (hc c (by simp))).trans (ih _ fun d hd => hc d (by simp [hd]))

/-- Every claim step under way is taken: moves of the state without them. -/
theorem State.takeAllClaims_moves (s : State) (hc : ∀ step ∈ s.transit.claims, ∀ c ∈ step, c.Sent) :
    LineMoves { s with transit := { s.transit with claims := [] } } s.takeAllClaims := by
  unfold State.takeAllClaims
  generalize ({ s with transit := { s.transit with claims := [] } } : State) = t
  generalize s.transit.claims = steps at hc
  induction steps generalizing t with
  | nil => exact .refl
  | cons step rest ih =>
    exact (t.takeClaimStep_moves step (hc step (by simp))).trans (ih _ fun d hd => hc d (by simp [hd]))

theorem State.expireOne_moves (s : State) (g : Fin 6) : LineMoves s (s.expireOne g) := by
  unfold State.expireOne
  split
  · exact .refl
  · rename_i queue _
    have h1 : LineMoves s ((s.setGroupRecord g
        { s.groups[g] with queue := queue, abandoned := bump8 s.groups[g].abandoned }).setFlag .defer) :=
      .tail (.single (.queue g _ _ _ (.inl rfl) (.inr rfl))) .defer
    exact h1.trans (State.examineHead_moves _ _)

theorem State.foldl_moves {α : Type} (f : State → α → State) (hf : ∀ s a, LineMoves s (f s a)) (l : List α) (s : State) :
    LineMoves s (l.foldl f s) := by
  induction l generalizing s with
  | nil => exact .refl
  | cons a rest ih => exact (hf s a).trans (ih _)

theorem State.expireGroup_moves (s : State) (g : Fin 6) : LineMoves s (s.expireGroup g) :=
  State.foldl_moves _ (fun t _ => t.expireOne_moves g) _ s

theorem State.headsExamined_moves (s : State) (which : Fin 6 → Bool) : LineMoves s (s.headsExamined which) :=
  State.foldl_moves _ (fun t g => by split; exacts [t.examineHead_moves g, .refl]) _ _

theorem State.examineOwed_moves (s : State) :
    LineMoves { s with transit := { s.transit with headOwed := 0#6 } } s.examineOwed :=
  State.headsExamined_moves _ _

/-- The groups whose head is examined late in a tick (log entry 4). -/
def State.owedAtTick (s : State) : BitVec 6 :=
  BitVec.ofFnLE fun g => !s.groups[g].queue.isEmpty && s.environment.late.getLsbD g.val

theorem State.examineAtTick_moves (s : State) :
    LineMoves { s with transit := { s.transit with headOwed := s.owedAtTick } } s.examineAtTick :=
  State.headsExamined_moves _ _

/-! ### What a sequence of moves leaves -/

/-- Everything but levels, ages, queues, counters, flags and the sources sent is as it was. -/
structure LineMoves.Frame (s t : State) : Prop where
  plan          : t.plan = s.plan
  validator     : t.validator = s.validator
  timebase      : t.timebase = s.timebase
  engine        : t.engine = s.engine
  tripIndicator : t.tripIndicator = s.tripIndicator
  sampler       : t.sampler = s.sampler
  converter     : t.converter = s.converter
  ring          : t.ring = s.ring
  trip          : t.trip = s.trip
  enables       : t.interrupts.enables = s.interrupts.enables
  port          : t.port = s.port
  rstLow        : t.rstLow = s.rstLow
  environment   : t.environment = s.environment
  pending       : t.pending = s.pending
  transit       : t.transit = { s.transit with sources := t.transit.sources }
  modes         : ∀ i : Fin 16, t.lines[i].mode = s.lines[i].mode
  members       : ∀ i : Fin 16, t.lines[i].group = s.lines[i].group
  rests         : ∀ i : Fin 16, t.lines[i].restLevel = s.lines[i].restLevel
  safes         : ∀ i : Fin 16, t.lines[i].safeLevel = s.lines[i].safeLevel
  polarities    : ∀ i : Fin 16, t.lines[i].polarity = s.lines[i].polarity
  gaps          : ∀ g : Fin 6, t.groups[g].gap = s.groups[g].gap
  policies      : ∀ g : Fin 6, t.groups[g].policy = s.groups[g].policy
  limits        : ∀ g : Fin 6, t.groups[g].limit = s.groups[g].limit

theorem LineMoves.frame_refl (s : State) : LineMoves.Frame s s := by constructor <;> intros <;> rfl

theorem LineMove.frame {s t : State} (h : LineMove s t) : LineMoves.Frame s t := by
  cases h <;> constructor <;> intros <;> simp [Interrupts.withFlag] <;> split <;> simp_all

theorem LineMoves.Frame.trans {s t u : State} (h : LineMoves.Frame s t) (k : LineMoves.Frame t u) :
    LineMoves.Frame s u := by
  constructor
  case transit => rw [k.transit, h.transit]
  all_goals intros
  all_goals first
    | rw [k.plan, h.plan] | rw [k.validator, h.validator] | rw [k.timebase, h.timebase] | rw [k.engine, h.engine]
    | rw [k.tripIndicator, h.tripIndicator] | rw [k.sampler, h.sampler] | rw [k.converter, h.converter]
    | rw [k.ring, h.ring] | rw [k.trip, h.trip] | rw [k.enables, h.enables] | rw [k.port, h.port]
    | rw [k.rstLow, h.rstLow] | rw [k.environment, h.environment] | rw [k.pending, h.pending]
    | rw [k.modes, h.modes] | rw [k.members, h.members] | rw [k.rests, h.rests] | rw [k.safes, h.safes]
    | rw [k.polarities, h.polarities] | rw [k.gaps, h.gaps] | rw [k.policies, h.policies] | rw [k.limits, h.limits]

theorem LineMoves.frame {s t : State} (h : LineMoves s t) : LineMoves.Frame s t := by
  induction h with
  | refl => exact LineMoves.frame_refl s
  | tail _ hb ih => exact ih.trans hb.frame

end Sys2Proof.Machine
end

