-- ==== Sys2Proof/Laws/Host.lean ====
section
/-! SUPPORT. The form of a command, said once: an event happens unless RST# is low, an action happens where its word
completes, and neither ever stops the part. -/

namespace Sys2Proof.Machine

theorem State.writingAt_iff (s : State) (a : Address) : s.writingAt a = true ↔ s.atWord a := by
  simp [State.writingAt, State.atWord]

theorem State.event_next {s : State} (h : s.rstLow = false) (t : State) : s.event t = .next t := by
  simp [State.event, h]

theorem State.event_reset {s : State} (h : s.rstLow = true) (t : State) : s.event t = .next s := by
  simp [State.event, h]

theorem State.writeWord_next {s : State} {a : Address} (h : s.atWord a) (t : State) :
    s.writeWord a t = .next (t.afterWord a) := by
  rw [State.writeWord, if_pos (s.writingAt_iff a |>.2 h)]; rfl

theorem State.writeWord_elsewhere {s : State} {a : Address} (h : ¬s.atWord a) (t : State) :
    s.writeWord a t = .next s := by
  rw [State.writeWord, if_neg fun k => h (s.writingAt_iff a |>.1 k)]

/-- An action whose word completes: its owner's state, with the outcome in ACT_RESULT (R196, R197). -/
theorem State.action_next {s : State} {a : Address} (h : s.atWord a) (owner : State → State × ResultCode) :
    s.action a owner = .next ((owner s).1.acted a (owner s).2) := by
  rw [State.action, State.writeWord_next h]; rfl

/-- An action whose word does not complete there changes nothing. -/
theorem State.action_elsewhere {s : State} {a : Address} (h : ¬s.atWord a) (owner : State → State × ResultCode) :
    s.action a owner = .next s := State.writeWord_elsewhere h _

theorem State.event_completes (s t : State) : ∃ u, s.event t = .next u := ⟨_, rfl⟩

theorem State.action_completes (s : State) (a : Address) (owner : State → State × ResultCode) :
    ∃ t, s.action a owner = .next t := ⟨_, rfl⟩

end Sys2Proof.Machine
end

