-- ==== Sys2Proof/Laws/Lines.lean ====
section
/-! SUPPORT. The line block's operations case by case: what an examination, a move of a line and the removal of a waiting
rise do in each case the manual separates. -/

namespace Sys2Proof.Machine

/-- The guard's check is the clear rise of R122. -/
theorem State.clear_iff_riseClear (s : State) (x : Fin 16) : s.clear x = true ↔ s.RiseClear x := by
  rw [State.clear_iff]
  exact ⟨fun h g y a b c => h g a y b c, fun h g a y b c => h g y a b c⟩

theorem Line.atLevel_active (l : Line) : l.atLevel .active = { l with level := .active } := by simp [Line.atLevel]

/-! ### Examinations (R125) -/

theorem State.examineHead_nil (s : State) (g : Fin 6) (h : s.groups[g].queue = []) : s.examineHead g = s := by
  unfold State.examineHead; rw [h]

theorem State.examineHead_stays (s : State) (g : Fin 6) {w : Waiting} {rest : List Waiting}
    (h : s.groups[g].queue = w :: rest) (hc : ¬s.RiseClear w.line) : s.examineHead g = s := by
  unfold State.examineHead
  rw [h]
  exact if_neg fun k => hc ((s.clear_iff_riseClear _).1 k)

theorem State.examineHead_rises (s : State) (g : Fin 6) {w : Waiting} {rest : List Waiting}
    (h : s.groups[g].queue = w :: rest) (hc : s.RiseClear w.line) :
    s.examineHead g =
      (s.setLine w.line { s.lines[w.line] with level := .active }).setGroupRecord g
        { s.groups[g] with queue := rest } := by
  unfold State.examineHead
  rw [h]
  simp only
  rw [if_pos ((s.clear_iff_riseClear _).2 hc), Line.atLevel_active]

/-- An examination moves no line that is not waiting in the group's queue. -/
theorem State.examineHead_line (s : State) (g : Fin 6) (x : Fin 16) (h : ∀ w ∈ s.groups[g].queue, w.line ≠ x) :
    (s.examineHead g).lines[x] = s.lines[x] := by
  unfold State.examineHead
  split
  · rfl
  · rename_i w rest hq
    split
    · have hne : w.line ≠ x := h w (by rw [hq]; simp)
      exact State.setLine_other s _ hne
    · rfl

/-! ### Moving a line (R109) -/

theorem State.moveLine_stays_or_rises (s : State) (x : Fin 16) (level : Level)
    (h : ¬(s.lines[x].level = .active ∧ level ≠ .active)) :
    s.moveLine x level = s.setLine x { s.lines[x] with level := level } := by
  unfold State.moveLine
  rw [if_neg h]
  simp only [Line.atLevel, h, if_false]

theorem State.moveLine_falls (s : State) (x : Fin 16) (level : Level)
    (h : s.lines[x].level = .active ∧ level ≠ .active) :
    s.moveLine x level = (s.setLine x { s.lines[x] with level := level, age := 0 }).examineFor x := by
  unfold State.moveLine
  rw [if_pos h]
  simp only [Line.atLevel, h, if_true, ne_eq, not_false_eq_true, and_self]

/-! ### Waiting rises (R127) -/

theorem State.isWaiting_iff (s : State) (x : Fin 16) :
    s.isWaiting x = true ↔ ∃ g, s.lines[x].group = some g ∧ ∃ w ∈ s.groups[g].queue, w.line = x := by
  unfold State.isWaiting
  split
  · rename_i h; simp [-Fin.getElem_fin, h]
  · rename_i g h; simp [-Fin.getElem_fin, h]

theorem State.setGroupRecord_same (s : State) (g : Fin 6) (r : InterlockGroup) (h : r = s.groups[g]) :
    s.setGroupRecord g r = s := by
  subst h
  unfold State.setGroupRecord
  have : s.groups.set g s.groups[g] = s.groups := by
    apply Vector.ext; intro i hi; rw [Vector.getElem_set]; split
    · rename_i e; subst e; rfl
    · rfl
  rw [this]

theorem State.removeWaiting_absent (s : State) (x : Fin 16)
    (h : ∀ g : Fin 6, s.lines[x].group = some g → ∀ w ∈ s.groups[g].queue, w.line ≠ x) : s.removeWaiting x = s := by
  unfold State.removeWaiting
  split
  · rfl
  · refine if_neg fun k => ?_
    obtain ⟨g, hg, w, hw, e⟩ := (s.isWaiting_iff x).1 k
    exact h g hg w hw e

theorem State.removeWaiting_waiting (s : State) (x : Fin 16) (g : Fin 6) (hg : s.lines[x].group = some g)
    (hw : ∃ w ∈ s.groups[g].queue, w.line = x) :
    s.removeWaiting x =
      (s.setGroupRecord g { s.groups[g] with
        queue := s.groups[g].queue.filter fun w => w.line ≠ x }).examineHead g := by
  unfold State.removeWaiting
  split
  · rename_i h; rw [hg] at h; cases h
  · rename_i k hk
    obtain rfl : g = k := by rw [hg] at hk; injection hk
    rw [if_pos ((s.isWaiting_iff x).2 ⟨g, hg, hw⟩)]
    have : (fun w : Waiting => w.line != x) = fun w => decide (w.line ≠ x) := by funext w; simp [bne, BEq.beq]
    rw [this]

/-! ### Expiry (R126) -/

theorem withoutExpired_none (limit : Nat) (queue : List Waiting) (h : ∀ w ∈ queue, w.wait < limit) :
    withoutExpired limit queue = none := by
  induction queue with
  | nil => rfl
  | cons w rest ih =>
    have := h w (by simp)
    simp [withoutExpired, Nat.not_le.2 this, ih fun v hv => h v (by simp [hv])]

theorem withoutExpired_some (limit : Nat) (before after : List Waiting) (w : Waiting)
    (h : ∀ v ∈ before, v.wait < limit) (hw : limit ≤ w.wait) :
    withoutExpired limit (before ++ w :: after) = some (before ++ after) := by
  induction before with
  | nil => simp [withoutExpired, hw]
  | cons v rest ih =>
    have := h v (by simp)
    simp [withoutExpired, Nat.not_le.2 this, ih fun u hu => h u (by simp [hu])]

end Sys2Proof.Machine
end

