-- ==== Sys2Proof/Laws/PerInstr.lean ====
section
/-! SUPPORT. The family of statements about each command as syntax: a command that is a write word is spelled by a word at
its address (R194). One lemma for each command. -/

namespace Sys2Proof.Laws

/-- A command with an address is the command that some word there spells. -/
def Address.Statement (i : Instr) : Prop := ∀ a, i.address = some a → ∃ w, commandAt a w = some i

theorem Address.powerOn : Address.Statement .powerOn := by
  intro a h; cases h

theorem Address.rstAssert : Address.Statement .rstAssert := by
  intro a h; cases h

theorem Address.rstRelease : Address.Statement .rstRelease := by
  intro a h; cases h

theorem Address.csFall : Address.Statement .csFall := by
  intro a h; cases h

theorem Address.commandByte (byte : Byte) : Address.Statement (.commandByte byte) := by
  intro a h; cases h

theorem Address.csRise : Address.Statement .csRise := by
  intro a h; cases h

theorem Address.registerWrite (word : Word) : Address.Statement (.registerWrite word) := by
  intro a h; cases h

theorem Address.recordRead : Address.Statement .recordRead := by
  intro a h; cases h

theorem Address.iflagWrite (word : Word) : Address.Statement (.iflagWrite word) := by
  intro a h; cases h; exact ⟨word, rfl⟩

theorem Address.ienableWrite (word : Word) : Address.Statement (.ienableWrite word) := by
  intro a h; cases h; exact ⟨word, rfl⟩

theorem Address.insertEdge : Address.Statement .insertEdge := by
  intro a h; cases h; exact ⟨0#16, rfl⟩

theorem Address.removeEdge : Address.Statement .removeEdge := by
  intro a h; cases h; exact ⟨0#16, rfl⟩

theorem Address.clearStage : Address.Statement .clearStage := by
  intro a h; cases h; exact ⟨0#16, rfl⟩

theorem Address.setFrameLength : Address.Statement .setFrameLength := by
  intro a h; cases h; exact ⟨0#16, rfl⟩

theorem Address.copyActive : Address.Statement .copyActive := by
  intro a h; cases h; exact ⟨0#16, rfl⟩

theorem Address.copyCompletion : Address.Statement .copyCompletion := by
  intro a h; cases h

theorem Address.readStageEntry : Address.Statement .readStageEntry := by
  intro a h; cases h; exact ⟨0#16, rfl⟩

theorem Address.readActiveEntry : Address.Statement .readActiveEntry := by
  intro a h; cases h; exact ⟨0#16, rfl⟩

theorem Address.commit : Address.Statement .commit := by
  intro a h; cases h; exact ⟨0#16, rfl⟩

theorem Address.validationCompletion : Address.Statement .validationCompletion := by
  intro a h; cases h

theorem Address.withdraw : Address.Statement .withdraw := by
  intro a h; cases h; exact ⟨0#16, rfl⟩

theorem Address.tripNoticePlanStore : Address.Statement .tripNoticePlanStore := by
  intro a h; cases h

theorem Address.setTimebase : Address.Statement .setTimebase := by
  intro a h; cases h; exact ⟨0#16, rfl⟩

theorem Address.start : Address.Statement .start := by
  intro a h; cases h; exact ⟨0#16, rfl⟩

theorem Address.stop : Address.Statement .stop := by
  intro a h; cases h; exact ⟨0#16, rfl⟩

theorem Address.tick : Address.Statement .tick := by
  intro a h; cases h

theorem Address.syncInArrival : Address.Statement .syncInArrival := by
  intro a h; cases h

theorem Address.syncTimeout : Address.Statement .syncTimeout := by
  intro a h; cases h

theorem Address.engineClaims : Address.Statement .engineClaims := by
  intro a h; cases h

theorem Address.deferralExpiry (group : Fin 6) : Address.Statement (.deferralExpiry group) := by
  intro a h; cases h

theorem Address.setLineConfig : Address.Statement .setLineConfig := by
  intro a h; cases h; exact ⟨0#16, rfl⟩

theorem Address.setLineMode : Address.Statement .setLineMode := by
  intro a h; cases h; exact ⟨0#16, rfl⟩

theorem Address.setGroup : Address.Statement .setGroup := by
  intro a h; cases h; exact ⟨0#16, rfl⟩

theorem Address.readLine : Address.Statement .readLine := by
  intro a h; cases h; exact ⟨0#16, rfl⟩

theorem Address.readGroup : Address.Statement .readGroup := by
  intro a h; cases h; exact ⟨0#16, rfl⟩

theorem Address.clearNoticeTimebase : Address.Statement .clearNoticeTimebase := by
  intro a h; cases h

theorem Address.clearNoticeLineBlock : Address.Statement .clearNoticeLineBlock := by
  intro a h; cases h

theorem Address.setSlot : Address.Statement .setSlot := by
  intro a h; cases h; exact ⟨0#16, rfl⟩

theorem Address.readSlot : Address.Statement .readSlot := by
  intro a h; cases h; exact ⟨0#16, rfl⟩

theorem Address.sampleNow : Address.Statement .sampleNow := by
  intro a h; cases h; exact ⟨0#16, rfl⟩

theorem Address.sampleRequest : Address.Statement .sampleRequest := by
  intro a h; cases h

theorem Address.conversionCompletion : Address.Statement .conversionCompletion := by
  intro a h; cases h

theorem Address.setConverter : Address.Statement .setConverter := by
  intro a h; cases h; exact ⟨0#16, rfl⟩

theorem Address.calibrate : Address.Statement .calibrate := by
  intro a h; cases h; exact ⟨0#16, rfl⟩

theorem Address.calibrationConversion : Address.Statement .calibrationConversion := by
  intro a h; cases h

theorem Address.cancelCal : Address.Statement .cancelCal := by
  intro a h; cases h; exact ⟨0#16, rfl⟩

theorem Address.tripNoticeConverter : Address.Statement .tripNoticeConverter := by
  intro a h; cases h

theorem Address.setRing : Address.Statement .setRing := by
  intro a h; cases h; exact ⟨0#16, rfl⟩

theorem Address.faultSample (input : Fin 2) (pinHigh : Bool) : Address.Statement (.faultSample input pinHigh) := by
  intro a h; cases h

theorem Address.filterExpiry (input : Fin 2) : Address.Statement (.filterExpiry input) := by
  intro a h; cases h

theorem Address.setFault : Address.Statement .setFault := by
  intro a h; cases h; exact ⟨0#16, rfl⟩

theorem Address.tripSource (source : TripSource) : Address.Statement (.tripSource source) := by
  intro a h; cases h

theorem Address.trip : Address.Statement .trip := by
  intro a h; cases h; exact ⟨0#16, rfl⟩

theorem Address.clearTrip : Address.Statement .clearTrip := by
  intro a h; cases h; exact ⟨0#16, rfl⟩

theorem Address.readTripRecord : Address.Statement .readTripRecord := by
  intro a h; cases h; exact ⟨0#16, rfl⟩

theorem Address.clearCounters : Address.Statement .clearCounters := by
  intro a h; cases h; exact ⟨0#16, rfl⟩

theorem Address.softReset : Address.Statement .softReset := by
  intro a h; cases h; exact ⟨0#16, rfl⟩

end Sys2Proof.Laws
end

