-- ==== Sys2Proof/Laws/Plan.lean ====
section
/-! SUPPORT. The banks and the edge-entry list: what writing the staging bank and swapping do to the two plans, and that
inserting and removing entries keep the law of a plan. -/

namespace Sys2Proof.Machine

/-! ### The banks (R9, R10) -/

@[simp] theorem Bank.other_other (bank : Bank) : bank.other.other = bank := by cases bank <;> rfl

theorem Bank.other_ne (bank : Bank) : bank.other ≠ bank := by cases bank <;> decide

@[simp] theorem PlanStore.withStaging_active (p : PlanStore) (plan : Plan) : (p.withStaging plan).active = p.active := by
  unfold PlanStore.withStaging PlanStore.active
  cases p.selector <;> simp [PlanStore.bank]

@[simp] theorem PlanStore.withStaging_stagingPlan (p : PlanStore) (plan : Plan) :
    (p.withStaging plan).stagingPlan = plan := by
  unfold PlanStore.withStaging PlanStore.stagingPlan
  cases p.selector <;> simp [PlanStore.bank, Bank.other]

@[simp] theorem PlanStore.withStaging_selector (p : PlanStore) (plan : Plan) :
    (p.withStaging plan).selector = p.selector := by
  unfold PlanStore.withStaging; cases p.selector <;> rfl

@[simp] theorem PlanStore.withStaging_generation (p : PlanStore) (plan : Plan) :
    (p.withStaging plan).generation = p.generation := by
  unfold PlanStore.withStaging; cases p.selector <;> rfl

@[simp] theorem PlanStore.withStaging_staging (p : PlanStore) (plan : Plan) :
    (p.withStaging plan).staging = p.staging := by
  unfold PlanStore.withStaging; cases p.selector <;> rfl

/-- A bank of the store with `plan` staged is the staged plan or the bank it was. -/
theorem PlanStore.withStaging_bank (p : PlanStore) (plan : Plan) (bank : Bank) :
    (p.withStaging plan).bank bank = if bank = p.selector then p.bank bank else plan := by
  unfold PlanStore.withStaging
  cases h : p.selector <;> cases bank <;> rfl

@[simp] theorem PlanStore.swap_active (p : PlanStore) : p.swap.active = p.stagingPlan := rfl

@[simp] theorem PlanStore.swap_stagingPlan (p : PlanStore) : p.swap.stagingPlan = p.active := by
  simp [PlanStore.swap, PlanStore.stagingPlan, PlanStore.active, PlanStore.bank]

/-- A law of both banks is one of the active and the staging plan. -/
theorem PlanStore.both_banks (p : PlanStore) (P : Plan → Prop) :
    P p.bankA ∧ P p.bankB ↔ P p.active ∧ P p.stagingPlan := by
  unfold PlanStore.active PlanStore.stagingPlan
  cases p.selector <;> simp [PlanStore.bank, Bank.other, and_comm]

/-! ### The entry list (R6, R25, R26) -/

/-- The key order of R6, as a proposition. -/
theorem Entry.keyBefore_iff (e f : Entry) :
    e.keyBefore f = true ↔ e.offset < f.offset ∨ (e.offset = f.offset ∧ e.line < f.line) := by
  simp [Entry.keyBefore]

/-- In a list in key order an entry with a new key goes behind the entries before it and before those after it (R25). -/
theorem insertEntry_eq (e : Entry) (l : List Entry)
    (hs : l.Pairwise fun e f => e.offset < f.offset ∨ (e.offset = f.offset ∧ e.line < f.line))
    (hk : ¬∃ f ∈ l, f.offset = e.offset ∧ f.line = e.line) :
    insertEntry e l =
      (l.filter fun f => f.offset < e.offset ∨ (f.offset = e.offset ∧ f.line < e.line))
        ++ e :: (l.filter fun f => e.offset < f.offset ∨ (e.offset = f.offset ∧ e.line < f.line)) := by
  induction l with
  | nil => rfl
  | cons a rest ih =>
    rw [List.pairwise_cons] at hs
    have hk' : ¬∃ f ∈ rest, f.offset = e.offset ∧ f.line = e.line := fun ⟨f, hf, h⟩ => hk ⟨f, by simp [hf], h⟩
    have ha : ¬(a.offset = e.offset ∧ a.line = e.line) := fun h => hk ⟨a, by simp, h⟩
    unfold insertEntry
    by_cases h : a.offset < e.offset ∨ (a.offset = e.offset ∧ a.line < e.line)
    · have h2 : ¬(e.offset < a.offset ∨ (e.offset = a.offset ∧ e.line < a.line)) := by
        rcases h with h | h
        · omega
        · simp only [Fin.lt_def] at *; omega
      rw [if_pos ((Entry.keyBefore_iff a e).2 h), ih hs.2 hk', List.filter_cons_of_pos (by simpa using h),
        List.filter_cons_of_neg (by simpa using h2)]
      rfl
    · have h2 : e.offset < a.offset ∨ (e.offset = a.offset ∧ e.line < a.line) := by
        simp only [Fin.lt_def, Fin.ext_iff] at *; omega
      rw [if_neg fun k => h ((Entry.keyBefore_iff a e).1 k), List.filter_cons_of_neg (by simpa using h),
        List.filter_cons_of_pos (by simpa using h2)]
      have e1 : rest.filter (fun f => decide (f.offset < e.offset ∨ (f.offset = e.offset ∧ f.line < e.line))) = [] := by
        rw [List.filter_eq_nil_iff]; intro f hf
        have := hs.1 f hf
        simp only [Fin.lt_def, Fin.ext_iff, decide_eq_true_eq] at *; omega
      have e2 : rest.filter (fun f => decide (e.offset < f.offset ∨ (e.offset = f.offset ∧ e.line < f.line))) = rest := by
        rw [List.filter_eq_self]; intro f hf
        have := hs.1 f hf
        simp only [Fin.lt_def, Fin.ext_iff, decide_eq_true_eq] at *; omega
      rw [e1, e2]; rfl

theorem mem_insertEntry (e f : Entry) (l : List Entry) : f ∈ insertEntry e l ↔ f = e ∨ f ∈ l := by
  induction l with
  | nil => simp [insertEntry]
  | cons a rest ih => unfold insertEntry; split <;> simp [ih]; tauto

theorem length_insertEntry (e : Entry) (l : List Entry) : (insertEntry e l).length = l.length + 1 := by
  induction l with
  | nil => rfl
  | cons a rest ih => unfold insertEntry; split <;> simp [ih]

/-- An entry whose key is new joins a lawful plan lawfully, where the checks of R24 have passed. -/
theorem Plan.Lawful.insert {p : Plan} (h : p.Lawful) (e : Entry) (table : Option StartTable)
    (room : p.entries.length < 64) (inside : e.offset < p.frameLength) (tag : e.action = .mark → e.tag ≠ none)
    (new : ¬∃ f ∈ p.entries, f.offset = e.offset ∧ f.line = e.line) :
    Plan.Lawful ⟨p.frameLength, insertEntry e p.entries, table⟩ := by
  refine ⟨?_, ?_, ?_, ?_, h.least, h.most⟩
  · show (insertEntry e p.entries).length ≤ 64
    rw [length_insertEntry]; omega
  · show (insertEntry e p.entries).Pairwise _
    rw [insertEntry_eq e _ h.sorted new, List.pairwise_append, List.pairwise_cons]
    refine ⟨h.sorted.filter _, ⟨?_, h.sorted.filter _⟩, ?_⟩
    · intro f hf; simpa using (List.mem_filter.1 hf).2
    · intro a ha b hb
      have ha := (List.mem_filter.1 ha).2
      rcases List.mem_cons.1 hb with rfl | hb
      · simpa using ha
      · have hb := (List.mem_filter.1 hb).2
        simp only [decide_eq_true_eq, Fin.lt_def, Fin.ext_iff] at *; omega
  · intro f hf
    rcases (mem_insertEntry e f _).1 hf with rfl | hf
    · exact inside
    · exact h.inside f hf
  · intro f hf
    rcases (mem_insertEntry e f _).1 hf with rfl | hf
    · exact tag
    · exact h.tagged f hf

/-- Part of the entries of a lawful plan are a lawful plan. -/
theorem Plan.Lawful.filter {p : Plan} (h : p.Lawful) (keep : Entry → Bool) (table : Option StartTable) :
    Plan.Lawful ⟨p.frameLength, p.entries.filter keep, table⟩ :=
  ⟨(List.length_filter_le _ _).trans h.count, h.sorted.filter _, fun f hf => h.inside f (List.mem_of_mem_filter hf),
    fun f hf => h.tagged f (List.mem_of_mem_filter hf), h.least, h.most⟩

/-- The table and mark are no part of a plan's law. -/
theorem Plan.Lawful.withTable {p : Plan} (h : p.Lawful) (table : Option StartTable) :
    Plan.Lawful { p with table := table } := ⟨h.count, h.sorted, h.inside, h.tagged, h.least, h.most⟩

/-- An entry that INSERT_EDGE reads is one a bank can hold: a tag on every MARK (R24). -/
theorem entryOf_tagged {p0 p1 : Word} {e : Entry} (h : entryOf p0 p1 = some e) : e.action = .mark → e.tag ≠ none := by
  unfold entryOf at h
  split at h
  · split at h
    · cases h
    · rename_i hn; cases h; intro ha ht; exact hn ⟨ha, ht⟩
  · cases h

end Sys2Proof.Machine
end

