-- ==== Sys2Proof/Laws/Sampling.lean ====
section
/-! SUPPORT. The shared operations of the sampling path, each said once: serving the queue, placing a request, the value
and mark of a record, and one trial of a calibration. -/

namespace Sys2Proof.Machine

theorem State.serveQueue_empty (s : State) (h : s.sampler.queue = []) :
    s.serveQueue = s.setConverterState .idle := by
  unfold State.serveQueue; rw [h]

/-- The head of the queue is taken with its channel's raw value and its wait (R146). -/
theorem State.serveQueue_takes (s : State) {r : Request} {rest : List Request} (h : s.sampler.queue = r :: rest) :
    s.serveQueue = State.afterSample { s with
      sampler := { s.sampler with queue := rest },
      converter := { s.converter with
        state := .converting ⟨r, s.environment.analog[r.channel],
          min ((s.environment.clk - r.entry) / s.converter.divider) 1023⟩,
        since := s.environment.clk } } r.channel := by
  unfold State.serveQueue; rw [h]; rfl

/-- A request that has room is placed as R142 states; an IDLE converter's queue is empty (R145). -/
theorem State.placeRequest_eq (s : State) (slot : Fin 8) (origin : Origin)
    (h : s.converter.state = .idle → s.sampler.queue = []) :
    s.placeRequest slot origin = s.requestPlaced slot origin := by
  unfold State.placeRequest State.requestPlaced
  by_cases hi : s.converter.state = .idle
  · simp [hi, h hi, State.serveQueue, State.startConversion, State.afterSample, State.rawValue, State.waitOf, State.now]
    rw [← h hi]
  · simp [hi, State.now]

theorem State.queueFull_iff (s : State) : s.queueFull = true ↔ 4 ≤ s.sampler.queue.length :=
  ⟨of_decide_eq_true, decide_eq_true⟩

/-- The value of a conversion is the exact sum clamped to 0 to 4095 (R147). -/
theorem corrected_eq (raw : BitVec 12) (trim : Nat) :
    (corrected raw trim : Int) = max 0 (min 4095 ((raw.toNat : Int) + trim - 16)) := by
  unfold corrected; omega

theorem corrected_le (raw : BitVec 12) (trim : Nat) : corrected raw trim ≤ 4095 := by unfold corrected; omega

theorem limitMark_below (window : Option Window) (value : Nat) :
    limitMark window value = .below ↔ ∃ w, window = some w ∧ value < w.low := by
  cases window with
  | none => simp [limitMark]
  | some w => by_cases h : value < w.low <;> by_cases k : w.high < value <;> simp [limitMark, h, k]

theorem limitMark_above (window : Option Window) (value : Nat) :
    limitMark window value = .above ↔ ∃ w, window = some w ∧ w.low ≤ value ∧ w.high < value := by
  cases window with
  | none => simp [limitMark]
  | some w =>
    by_cases h : value < w.low <;> by_cases k : w.high < value <;> simp [limitMark, h, k]
    all_goals omega

/-- One trial keeps its bit exactly when the corrected reading is at most 2048 (R151). -/
theorem keptAfter_eq (kept bit : Nat) (raw : BitVec 12) :
    keptAfter kept bit raw = if raw.toNat + (kept + 2 ^ bit) ≤ 2064 then kept + 2 ^ bit else kept := rfl

/-- A trial keeps the search inside 0 to 31. -/
theorem keptAfter_reached (kept bit : Nat) (raw : BitVec 12) (h : kept + 2 ^ (bit + 1) ≤ 32) :
    keptAfter kept bit raw + 2 ^ bit ≤ 32 := by
  rw [keptAfter_eq]; rw [Nat.pow_succ] at h; split <;> omega

end Sys2Proof.Machine
end

