-- ==== Sys2Proof/Laws/Timebase.lean ====
section
/-! SUPPORT. What the timebase and the engine can do, said once for each shared operation: which blocks a boundary, an
offset event and a tick reach, and what becomes of the plan store and of the line block. -/

namespace Sys2Proof.Machine

@[simp] theorem Interrupts.withFlag_enables (u : Interrupts) (f : Flag) : (u.withFlag f).enables = u.enables := rfl

/-! ### The blocks that frames and ticks never reach -/

/-- What no operation of the timebase changes. -/
structure TickFrame (s t : State) : Prop where
  validator     : t.validator = s.validator
  tripIndicator : t.tripIndicator = s.tripIndicator
  sampler       : t.sampler = s.sampler
  converter     : t.converter = s.converter
  ring          : t.ring = s.ring
  trip          : t.trip = s.trip
  enables       : t.interrupts.enables = s.interrupts.enables
  port          : t.port = s.port
  rstLow        : t.rstLow = s.rstLow
  pending       : t.pending = s.pending
  analog        : t.environment.analog = s.environment.analog
  clk           : t.environment.clk = s.environment.clk
  samples       : t.environment.samples = s.environment.samples
  planNotices   : t.transit.planNotices = s.transit.planNotices
  notices       : t.transit.converterNotices = s.transit.converterNotices
  clearTimebase : t.transit.clearTimebase = s.transit.clearTimebase
  clearLines    : t.transit.clearLines = s.transit.clearLines

theorem TickFrame.refl (s : State) : TickFrame s s := by constructor <;> rfl

theorem TickFrame.trans {s t u : State} (h : TickFrame s t) (k : TickFrame t u) : TickFrame s u where
  validator := k.validator.trans h.validator
  tripIndicator := k.tripIndicator.trans h.tripIndicator
  sampler := k.sampler.trans h.sampler
  converter := k.converter.trans h.converter
  ring := k.ring.trans h.ring
  trip := k.trip.trans h.trip
  enables := k.enables.trans h.enables
  port := k.port.trans h.port
  rstLow := k.rstLow.trans h.rstLow
  pending := k.pending.trans h.pending
  analog := k.analog.trans h.analog
  clk := k.clk.trans h.clk
  samples := k.samples.trans h.samples
  planNotices := k.planNotices.trans h.planNotices
  notices := k.notices.trans h.notices
  clearTimebase := k.clearTimebase.trans h.clearTimebase
  clearLines := k.clearLines.trans h.clearLines

theorem LineMoves.tickFrame {s t : State} (h : LineMoves s t) : TickFrame s t := by
  have f := h.frame
  have e := f.transit
  exact ⟨f.validator, f.tripIndicator, f.sampler, f.converter, f.ring, f.trip, f.enables, f.port, f.rstLow, f.pending,
    by rw [f.environment], by rw [f.environment], by rw [f.environment], by rw [e], by rw [e], by rw [e], by rw [e]⟩

theorem State.setFlagIf_tickFrame (s : State) (c : Bool) (f : Flag) : TickFrame s (s.setFlagIf c f) := by
  unfold State.setFlagIf; split <;> constructor <;> rfl

theorem State.offsetEventAfter_tickFrame (s : State) (before : List Claim) (o : Nat) :
    TickFrame s (s.offsetEventAfter before o) := by constructor <;> rfl

theorem State.frameStart_tickFrame (s : State) (frame : Word) : TickFrame s (s.frameStart frame) := by
  constructor <;> rfl

theorem State.countSkipped_tickFrame (s : State) : TickFrame s s.countSkipped :=
  TickFrame.trans (by constructor <;> rfl) (State.setFlagIf_tickFrame _ _ _)

theorem State.advanceDivider_tickFrame (s : State) : TickFrame s s.advanceDivider := by
  unfold State.advanceDivider; split <;> constructor <;> rfl

theorem State.boundaryNotice_tickFrame (s : State) : TickFrame s s.boundaryNotice := by
  unfold State.boundaryNotice; split <;> constructor <;> rfl

/-! ### Claims under way are taken -/

theorem State.takeClaim_tickFrame (s : State) (c : Claim) : TickFrame s (s.takeClaim c) := by
  unfold State.takeClaim
  split
  · exact .refl s
  · have move (t : State) (x : Fin 16) (v : Level) : TickFrame t (t.moveLine x v) := by
      unfold State.moveLine
      have h1 : TickFrame t (t.setLine x (t.lines[x].atLevel v)) := by constructor <;> rfl
      split
      · exact h1.trans (State.examineFor_moves _ _).tickFrame
      · exact h1
    cases c with
    | fall x => exact (State.removeWaiting_moves _ _).tickFrame.trans (move _ _ _)
    | startFall x target => exact (State.removeWaiting_moves _ _).tickFrame.trans (move _ _ _)
    | rise x => exact (State.judgeRise_moves _ _).tickFrame
    | startRise x => exact LineMoves.tickFrame ((State.removeWaiting_moves _ _).trans (State.judgeRise_moves _ _))

theorem State.foldl_tickFrame {α : Type} (f : State → α → State) (hf : ∀ s a, TickFrame s (f s a)) (l : List α)
    (s : State) : TickFrame s (l.foldl f s) := by
  induction l generalizing s with
  | nil => exact .refl s
  | cons a rest ih => exact (hf s a).trans (ih _)

theorem State.takeAllClaims_tickFrame (s : State) : TickFrame s s.takeAllClaims := by
  have h1 : TickFrame s { s with transit := { s.transit with claims := [] } } := by constructor <;> rfl
  exact h1.trans (State.foldl_tickFrame _
    (fun t step => State.foldl_tickFrame _ (fun u c => u.takeClaim_tickFrame c) step t) _ _)

theorem State.stopLines_tickFrame (s : State) : TickFrame s s.stopLines :=
  s.takeAllClaims_tickFrame.trans (by constructor <;> rfl)

theorem State.timebase_tickFrame (s : State) (t : Timebase) (expiry : Bool) :
    TickFrame s { s with timebase := t, transit := { s.transit with syncExpiry := expiry } } := by constructor <;> rfl

theorem State.headOwed_tickFrame (s : State) (owed : BitVec 6) :
    TickFrame s { s with transit := { s.transit with headOwed := owed } } := by constructor <;> rfl

theorem State.advanceAges_tickFrame (s : State) : TickFrame s s.advanceAges := by constructor <;> rfl

theorem State.tickClock_tickFrame (s : State) : TickFrame s s.tickClock := by constructor <;> rfl

theorem State.idleEngine_tickFrame (s : State) : TickFrame s s.idleEngine := by constructor <;> rfl

theorem State.becomeStopped_tickFrame (s : State) : TickFrame s s.becomeStopped :=
  ((s.timebase_tickFrame _ false).trans (State.stopLines_tickFrame _)).trans (State.idleEngine_tickFrame _)

/-! ### Boundaries and ticks -/

theorem State.boundary_tickFrame (s : State) : TickFrame s s.boundary := by
  have h1 : TickFrame s { s with timebase := { s.timebase with
    tick := 0, frameNumber := s.timebase.frameNumber + 1#16, syncOut := true } } := by constructor <;> rfl
  have h2 := (h1.trans (State.advanceDivider_tickFrame _)).trans (State.boundaryNotice_tickFrame _)
  unfold State.boundary
  simp only
  split
  · exact h2.trans (State.becomeStopped_tickFrame _)
  · exact h2.trans (by constructor <;> rfl)

theorem State.boundaryByArrival_tickFrame (s : State) : TickFrame s s.boundaryByArrival :=
  s.countSkipped_tickFrame.trans (State.boundary_tickFrame _)

theorem State.beginFrameZero_tickFrame (s : State) : TickFrame s s.beginFrameZero := by constructor <;> rfl

theorem State.nextOffset_tickFrame (s : State) : TickFrame s s.nextOffset := by
  unfold State.nextOffset; simp only; split <;> constructor <;> rfl

theorem State.walkTick_tickFrame (s : State) : TickFrame s s.walkTick := by
  unfold State.walkTick; split
  exacts [s.nextOffset_tickFrame, s.boundary_tickFrame]

theorem State.holdTick_tickFrame (s : State) : TickFrame s s.holdTick := by
  unfold State.holdTick; split <;> constructor <;> rfl

theorem State.timebaseTick_tickFrame (s : State) (arrival : Bool) : TickFrame s (s.timebaseTick arrival) := by
  unfold State.timebaseTick; split
  exacts [.refl s, .refl s, s.beginFrameZero_tickFrame, .refl s, s.boundaryByArrival_tickFrame, s.walkTick_tickFrame,
    s.boundaryByArrival_tickFrame, s.walkTick_tickFrame, s.boundary_tickFrame, s.holdTick_tickFrame]

theorem State.settleSync_tickFrame (s : State) : TickFrame s s.settleSync := by
  unfold State.settleSync
  split
  · unfold State.syncExpires
    split
    · constructor <;> rfl
    · have h1 : TickFrame s { s with timebase := { s.timebase with missCount := bump8 s.timebase.missCount } } := by
        constructor <;> rfl
      exact (h1.trans (State.boundary_tickFrame _)).trans (by constructor <;> rfl)
  · exact .refl s

theorem State.settleTick_tickFrame (s : State) : TickFrame s s.settleTick := by
  have h1 := s.settleSync_tickFrame.trans (State.takeAllClaims_tickFrame _)
  have h2 : TickFrame s s.settleSync.takeAllClaims.examineOwed :=
    h1.trans (TickFrame.trans (State.headOwed_tickFrame _ _) (State.examineOwed_moves _).tickFrame)
  exact h2.trans (State.foldl_tickFrame _ (fun t g => (t.expireGroup_moves g).tickFrame) _ _)

theorem State.oneTick_tickFrame (s : State) : TickFrame s s.oneTick := by
  have h1 := s.settleTick_tickFrame
  have h2 : TickFrame s s.settleTick.advanceAges.examineAtTick :=
    (h1.trans (State.advanceAges_tickFrame _)).trans
      ((State.headOwed_tickFrame _ _).trans (State.examineAtTick_moves _).tickFrame)
  exact (h2.trans (State.tickClock_tickFrame _)).trans (State.timebaseTick_tickFrame _ _)

/-! ### The plan store at frames and ticks -/

/-- The plan store is untouched, or took the one swap that was waiting in PENDING (R18, R53, R54). -/
def MaySwap (s t : State) : Prop := t.plan = s.plan ∨ (s.plan.staging = .pending ∧ t.plan = s.plan.swap)

theorem MaySwap.trans {s t u : State} (h : MaySwap s t) (k : MaySwap t u) : MaySwap s u := by
  rcases h with h | ⟨hp, h⟩
  · rcases k with k | ⟨kp, k⟩
    · exact .inl (k.trans h)
    · exact .inr ⟨h ▸ kp, by rw [k, h]⟩
  · rcases k with k | ⟨kp, k⟩
    · exact .inr ⟨hp, k.trans h⟩
    · rw [h] at kp; exact absurd kp (by simp [PlanStore.swap])

theorem MaySwap.same {s t : State} (h : t.plan = s.plan) : MaySwap s t := .inl h

theorem State.takeClaim_plan (s : State) (c : Claim) : (s.takeClaim c).plan = s.plan := by
  unfold State.takeClaim
  split
  · rfl
  · have move (t : State) (x : Fin 16) (v : Level) : (t.moveLine x v).plan = t.plan := by
      unfold State.moveLine
      simp only
      split
      · rw [(State.examineFor_moves _ _).frame.plan]; rfl
      · rfl
    cases c with
    | fall x => exact (move _ _ _).trans (State.removeWaiting_moves _ _).frame.plan
    | startFall x target => exact (move _ _ _).trans (State.removeWaiting_moves _ _).frame.plan
    | rise x => exact (State.judgeRise_moves _ _).frame.plan
    | startRise x =>
      exact (LineMoves.frame ((State.removeWaiting_moves _ _).trans (State.judgeRise_moves _ _))).plan

theorem State.foldl_plan {α : Type} (f : State → α → State) (hf : ∀ s a, (f s a).plan = s.plan) (l : List α)
    (s : State) : (l.foldl f s).plan = s.plan := by
  induction l generalizing s with
  | nil => rfl
  | cons a rest ih => exact (ih _).trans (hf s a)

theorem State.takeAllClaims_plan (s : State) : s.takeAllClaims.plan = s.plan :=
  State.foldl_plan _ (fun t step => State.foldl_plan _ (fun u c => u.takeClaim_plan c) step t) _ _

@[simp] theorem State.setFlagIf_plan (s : State) (c : Bool) (f : Flag) : (s.setFlagIf c f).plan = s.plan := by
  unfold State.setFlagIf; split <;> rfl

theorem State.becomeStopped_plan (s : State) : s.becomeStopped.plan = s.plan :=
  State.takeAllClaims_plan _

theorem State.advanceDivider_plan (s : State) : s.advanceDivider.plan = s.plan := by
  unfold State.advanceDivider; split <;> rfl

theorem State.boundaryNotice_maySwap (s : State) : MaySwap s s.boundaryNotice := by
  unfold State.boundaryNotice
  split
  · rename_i h; exact .inr ⟨h, rfl⟩
  · exact .same rfl

theorem State.boundary_maySwap (s : State) : MaySwap s s.boundary := by
  unfold State.boundary
  simp only
  have h2 := MaySwap.trans (.same (State.advanceDivider_plan _)) (State.boundaryNotice_maySwap
    (State.advanceDivider { s with timebase := { s.timebase with
      tick := 0, frameNumber := s.timebase.frameNumber + 1#16, syncOut := true } }))
  split
  · exact MaySwap.trans (s := s) h2 (.same (State.becomeStopped_plan _))
  · exact h2

theorem State.boundaryByArrival_maySwap (s : State) : MaySwap s s.boundaryByArrival :=
  MaySwap.trans (t := s.countSkipped) (.same (State.setFlagIf_plan _ _ _)) (State.boundary_maySwap _)

theorem State.nextOffset_plan (s : State) : s.nextOffset.plan = s.plan := by
  unfold State.nextOffset; simp only; split <;> rfl

theorem State.timebaseTick_maySwap (s : State) (arrival : Bool) : MaySwap s (s.timebaseTick arrival) := by
  have walk : MaySwap s s.walkTick := by
    unfold State.walkTick; split
    exacts [.same s.nextOffset_plan, s.boundary_maySwap]
  unfold State.timebaseTick
  split
  exacts [.same rfl, .same rfl, .same rfl, .same rfl, s.boundaryByArrival_maySwap, walk, s.boundaryByArrival_maySwap,
    walk, s.boundary_maySwap, .same (by unfold State.holdTick; split <;> rfl)]

theorem State.settleSync_maySwap (s : State) : MaySwap s s.settleSync := by
  unfold State.settleSync
  split
  · unfold State.syncExpires
    split
    · exact .same rfl
    · exact State.boundary_maySwap { s with timebase := { s.timebase with missCount := bump8 s.timebase.missCount } }
  · exact .same rfl

theorem State.settleTick_maySwap (s : State) : MaySwap s s.settleTick := by
  refine s.settleSync_maySwap.trans (.same ?_)
  unfold State.settleTick
  rw [State.foldl_plan _ (fun t g => (t.expireGroup_moves g).frame.plan), (State.examineOwed_moves _).frame.plan]
  exact State.takeAllClaims_plan _

theorem State.oneTick_maySwap (s : State) : MaySwap s s.oneTick := by
  have h := s.settleTick_maySwap
  unfold State.oneTick
  generalize s.settleTick = t at h
  refine h.trans (MaySwap.trans (.same ?_) (State.timebaseTick_maySwap _ _))
  rw [State.tickClock_plan, (State.examineAtTick_moves _).frame.plan, State.advanceAges_plan]

end Sys2Proof.Machine
end

