-- ==== Sys2Proof/Laws/Tick.lean ====
section
/-! SUPPORT. A tick of a settled state: with nothing under way and no wait at its limit, a tick begins as `TickBegun`
says and then makes the timebase's own move; with no rise waiting, what begins it is `tickPassed`. -/

namespace Sys2Proof.Machine

theorem foldl_id {α : Type} (f : State → α → State) (l : List α) (s : State) (h : ∀ a ∈ l, f s a = s) :
    l.foldl f s = s := by
  induction l with
  | nil => rfl
  | cons a rest ih => rw [List.foldl_cons, h a (by simp)]; exact ih fun b hb => h b (by simp [hb])

theorem vector_ext_fin {n : Nat} {α : Type} (v w : Vector α n) (h : ∀ i : Fin n, v[i] = w[i]) : v = w := by
  apply Vector.ext; intro i hi; exact h ⟨i, hi⟩

theorem withoutExpired_below (limit : Nat) (queue : List Waiting) (h : ∀ w ∈ queue, w.wait < limit) :
    withoutExpired limit queue = none := by
  induction queue with
  | nil => rfl
  | cons w rest ih =>
    have := h w (by simp)
    simp [withoutExpired, Nat.not_le.2 this, ih fun v hv => h v (by simp [hv])]

/-- A quiet state is settled. -/
theorem State.Quiet.settled {s : State} (q : s.Quiet) : s.Settled :=
  ⟨q.claims, q.expiry, q.owed, fun g w hw => by rw [q.queues g] at hw; cases hw⟩

/-- A settled state has nothing for a tick to settle. -/
theorem State.settleTick_settled (s : State) (q : s.Settled) : s.settleTick = s := by
  have h1 : s.settleSync = s := by simp [State.settleSync, q.expiry]
  have h2 : s.takeAllClaims = s := by simp [State.takeAllClaims, q.claims]; rw [← q.claims]
  have h3 : s.examineOwed = s := by
    unfold State.examineOwed
    have : ({ s with transit := { s.transit with headOwed := 0#6 } } : State) = s := by rw [← q.owed]
    rw [this]; exact foldl_id _ _ _ (by intro g _; simp [q.owed])
  unfold State.settleTick
  rw [h1, h2, h3]
  refine foldl_id _ _ _ fun g _ => foldl_id _ _ _ fun _ _ => ?_
  simp only [State.expireOne, withoutExpired_below _ _ (q.waits g)]

/-- The tick clock does not meet the guard: an examination before it is the same after it. -/
theorem State.examineHead_tickClock (s : State) (g : Fin 6) : (s.examineHead g).tickClock = s.tickClock.examineHead g := by
  have hc : ∀ x, s.tickClock.clear x = s.clear x := fun _ => rfl
  have hq : s.tickClock.groups = s.groups := rfl
  unfold State.examineHead
  rw [hq]
  split
  · rfl
  · rw [hc]; split <;> rfl

theorem State.headsExamined_tickClock (s : State) (which : Fin 6 → Bool) :
    (s.headsExamined which).tickClock = s.tickClock.headsExamined which := by
  unfold State.headsExamined
  generalize allGroups = l
  induction l generalizing s with
  | nil => rfl
  | cons g rest ih =>
    rw [List.foldl_cons, List.foldl_cons, ih]
    split
    · rw [State.examineHead_tickClock]
    · rfl

theorem State.tickPassed_lines (s : State) : s.tickPassed = { s with lines := mapTable s.lines Line.aged }.tickClock := by
  unfold State.tickPassed State.tickClock
  simp
  apply vector_ext_fin; intro i
  simp [tabulate, Line.aged, Config.ageLimit]

theorem mapTable_aged (groups : Vector InterlockGroup 6) :
    mapTable groups InterlockGroup.aged = tabulate fun g => { groups[g] with
      queue := groups[g].queue.map fun w => { w with wait := w.wait + 1 } } := by
  apply vector_ext_fin; intro g
  simp [tabulate, InterlockGroup.aged]

/-- How a tick begins: ages, waits, heads and the tick clock (R63, R109, R125). -/
theorem State.tickBegun (s : State) : s.TickBegun s.advanceAges.examineAtTick.tickClock := by
  refine ⟨s.advanceAges.owedAtTick, fun g => ?_, ?_⟩
  · have hq : s.advanceAges.groups[g].queue = s.groups[g].queue.map fun w => { w with wait := w.wait + 1 } := by
      unfold State.advanceAges; rw [mapTable_aged]; simp [tabulate]
    unfold State.owedAtTick
    rw [BitVec.getLsbD_ofFnLE]
    simp only [g.isLt, dif_pos, Fin.eta]
    rw [hq]
    simp [State.advanceAges]
  · show (State.headsExamined _ _).tickClock = _
    rw [State.headsExamined_tickClock, State.tickPassed_lines, ← mapTable_aged]
    rfl

/-- A tick of a settled state (R63, R74, R78). -/
theorem State.oneTick_settled (s : State) (q : s.Settled) :
    ∃ v : State, s.TickBegun v ∧ s.oneTick = v.timebaseTick (s.timebase.arrivalLatch && s.timebase.mode == .follow) :=
  ⟨_, s.tickBegun, by unfold State.oneTick; rw [State.settleTick_settled s q]⟩

/-- With no rise waiting, a tick begins with the ages and the clock alone. -/
theorem State.TickBegun.quiet {s v : State} (h : s.TickBegun v) (q : s.Quiet) : v = s.tickPassed := by
  obtain ⟨owed, ho, rfl⟩ := h
  have h0 : owed = 0#6 := by
    apply BitVec.eq_of_getLsbD_eq; intro i hi
    have := mt (ho ⟨i, hi⟩).1 fun k => k.1 (q.queues ⟨i, hi⟩)
    simpa using this
  have hg : (tabulate fun g : Fin 6 => { s.groups[g] with
      queue := s.groups[g].queue.map fun w => { w with wait := w.wait + 1 } }) = s.groups := by
    apply vector_ext_fin; intro g
    have := q.queues g
    simp [tabulate] at this ⊢
    rw [this]; simp
    generalize s.groups[g.val] = r at *
    cases r; simp_all
  rw [hg, h0]
  have hp : ({ s.tickPassed with groups := s.groups, transit := { s.transit with headOwed := 0#6 } } : State)
      = s.tickPassed := by rw [← q.owed]; rfl
  rw [hp]
  refine foldl_id _ _ _ fun g _ => ?_
  have := q.queues g
  simp [-Fin.getElem_fin, State.examineHead, State.tickPassed, this]

/-- A tick of a quiet state (R63, R74, R78). -/
theorem State.oneTick_quiet (s : State) (q : s.Quiet) :
    s.oneTick = s.tickPassed.timebaseTick (s.timebase.arrivalLatch && s.timebase.mode == .follow) := by
  obtain ⟨v, hv, h⟩ := s.oneTick_settled q.settled
  rw [h, hv.quiet q]

end Sys2Proof.Machine
end

