-- ==== Sys2Proof/Laws/Trip.lean ====
section
/-! SUPPORT. The trip controller's shared operation, said once: taking a source. -/

namespace Sys2Proof.Machine

theorem Timebase.stamp_eq (t : Timebase) :
    t.stamp = if t.state = .running ∨ t.state = .stopping ∨ t.state = .holding then some (t.frameNumber, t.tick)
      else none := by
  unfold Timebase.stamp
  cases t.state <;> simp

/-- The trip notice at the line block (R132). -/
theorem State.tripLines_eq (s : State) :
    s.tripLines = { s with
      lines := tabulate fun i => { s.lines[i] with
        level := s.lines[i].safeLevel,
        mode := if s.lines[i].mode = .scheduled then .scheduled else .rest,
        age := if s.lines[i].level = .active ∧ s.lines[i].safeLevel ≠ .active then 0 else s.lines[i].age },
      groups := tabulate fun g => { s.groups[g] with queue := [] },
      tripIndicator := true } := by
  unfold State.tripLines State.emptyQueues
  simp only [mapTable_eq_tabulate]
  rfl

/-- A source taken while TRIPPED (R180). -/
theorem State.takeSource_tripped (s : State) (sent : SentSource) (h : s.trip.state = .tripped) :
    s.takeSource sent = s.sourceTaken sent.source sent.cause := by
  unfold State.takeSource State.sourceTaken
  rw [h]
  simp only [State.recordSecondary, Timebase.stamp_eq, Config.tripListCapacity, bump8]
  rw [if_neg (c := TripState.tripped = TripState.armed) (by decide)]

/-- A source taken while ARMED (R178). -/
theorem State.takeSource_armed (s : State) (sent : SentSource) (h : s.trip.state = .armed) :
    s.takeSource sent = s.sourceTaken sent.source sent.cause := by
  unfold State.takeSource State.sourceTaken
  rw [h]
  simp only [State.tripDevice, Timebase.stamp_eq, State.tripLines_eq, if_true]
  rfl

/-- Taking a source is `sourceTaken` in either trip state (R178, R180). -/
theorem State.takeSource_eq (s : State) (sent : SentSource) :
    s.takeSource sent = s.sourceTaken sent.source sent.cause := by
  cases h : s.trip.state
  · exact s.takeSource_armed sent h
  · exact s.takeSource_tripped sent h

end Sys2Proof.Machine
end

