-- ==== Sys2Proof/Tests/Slice0.lean ====
section
/-! SUPPORT. Tests of single steps, with expected results read from the manual's rules, and for every obligation with
hypotheses a witness: a concrete state and operands that meet them, clause by clause. -/

namespace Sys2Proof.Tests

open Sys2Proof Sys2Proof.Machine

/-! ### Building small states -/

/-- The state after a command. -/
def after (c : Instr) (s : State) : State :=
  match exec c s with
  | .next t => t
  | .fault _ => s
  | .refused _ => s

/-- A write word is completing at `a`. -/
def writing (a : Address) (s : State) : State := { s with port := { s.port with phase := .writing a } }

/-- The host port in a phase. -/
def porting (x : PortPhase) (s : State) : State := { s with port := { s.port with phase := x } }

/-- P0 to P3 as given. -/
def params (p0 p1 p2 p3 : Nat) (s : State) : State :=
  { s with port := { s.port with
      p0 := BitVec.ofNat 16 p0, p1 := BitVec.ofNat 16 p1, p2 := BitVec.ofNat 16 p2, p3 := BitVec.ofNat 16 p3 } }

/-- An untagged entry of cadence EVERY. -/
def edge (offset : Nat) (line : Fin 16) (action : EdgeAction) : Entry := ⟨offset, line, action, .every, none⟩

/-- The staging bank with these entries, its mark and table gone. -/
def staged (entries : List Entry) (s : State) : State := s.setStaging ⟨1000, entries, none⟩

/-- The staging state as given. -/
def staging (x : Staging) (s : State) : State := s.setStagingState x

/-- The timebase state as given. -/
def timebase (x : TimebaseState) (s : State) : State := { s with timebase := { s.timebase with state := x } }

/-- Lines 0 and 1 SCHEDULED and in group 0, with this policy, gap and limit. -/
def grouped (policy : Policy) (gap limit : Nat) (s : State) : State :=
  ((s.setGroupRecord 0 { s.groups[(0 : Fin 6)] with gap := gap, policy := policy, limit := limit }).setLine 0
    { s.lines[(0 : Fin 16)] with mode := .scheduled, group := some 0 }).setLine 1
    { s.lines[(1 : Fin 16)] with mode := .scheduled, group := some 0 }

/-- Line 0 ACTIVE. -/
def zeroActive (s : State) : State := s.setLine 0 { s.lines[(0 : Fin 16)] with level := .active }

/-- Line 1 waiting in group 0. -/
def oneWaits (wait : Nat) (s : State) : State :=
  s.setGroupRecord 0 { s.groups[(0 : Fin 6)] with queue := [⟨1, wait⟩] }

/-- Lines 0 and 1 waiting in group 0, line 0 at the head. -/
def bothWait (s : State) : State :=
  s.setGroupRecord 0 { s.groups[(0 : Fin 6)] with queue := [⟨0, 2⟩, ⟨1, 1⟩] }

/-- These claims are on their way to the line block. -/
def handed (claims : List (List Claim)) (s : State) : State := { s with transit := { s.transit with claims := claims } }

/-- A request in conversion. -/
def request : Request := ⟨2, 2, .software, 0⟩

/-- The converter in a state. -/
def converter (x : ConverterState) (s : State) : State := s.setConverterState x

/-- The conversion queue holding `n` requests. -/
def queued (n : Nat) (s : State) : State := { s with sampler := { s.sampler with queue := List.replicate n request } }

/-- A result record. -/
def result : Result := ⟨2, 2, .software, 5, 0, .neither, false⟩

/-- A ring of `n` records. -/
def ringed (n : Nat) (s : State) : State := { s with ring := { s.ring with records := List.replicate n result } }

/-- The state after a TRIP from reset. -/
def tripped : State := State.reset.sourceTaken .software none

/-- A fault input as given. -/
def faulted (f : FaultInput) (s : State) : State := s.setFaultInput 0 f

/-! ### Commands that can be sent -/

theorem test_software_is_no_message : (Instr.tripSource .software).wellFormed = false := by decide
theorem test_other_sources_are_messages : (Instr.tripSource (.limit 7)).wellFormed = true := by decide
theorem test_no_word_spells_a_command : decodeTableWord 8 0 = none := by decide
theorem test_write_word_at_2A_is_start : commandAt 0x2A#7 0xFFFF#16 = some .start := by decide
theorem test_write_word_at_05_has_no_row : commandAt 0x05#7 7#16 = none := by decide

/-! ### One step of each command -/

theorem test_power_on_arms : (after .powerOn tripped).trip.state = .armed := by decide
theorem test_rst_releases_pins : (after .rstAssert State.reset).linePin 15 = .highImpedance := by decide
theorem test_rst_release_drives_pins :
    (after .rstRelease (after .rstAssert State.reset)).linePin 15 = .low := by decide
theorem test_cs_fall_takes_status :
    (after .csFall { tripped with port := { tripped.port with phase := .idle } }).port.statusByte = 0x80#8 := by decide
theorem test_command_byte_reads_id :
    (after (.commandByte 0x80#8) (after .csFall State.reset)).port.readWord = 0x5A08#16 := by decide
theorem test_cs_rise_ends : (after .csRise (after .csFall State.reset)).port.phase = .idle := by decide
theorem test_register_write_sets_p3 :
    (after (.registerWrite 9#16) (writing 0x08#7 State.reset)).port.p3 = 9#16 := by decide
theorem test_record_read_takes_head :
    (after .recordRead (ringed 2 (porting .recordDue State.reset))).ring.records
      = [result] := by decide
theorem test_read_word_wraps_to_id :
    (after (.registerWrite 0#16) (porting (.reading 0x7F#7) State.reset)).port.readWord = 0x5A08#16 := by decide
theorem test_iflag_write_clears :
    (after (.iflagWrite 1#16) (writing 0x03#7 (State.reset.withFlags 0x1FFF#13))).interrupts.flags = 0x1FFE#13 := by
  decide
theorem test_ienable_write_ignores_high_bits :
    (after (.ienableWrite 0xFFFF#16) (writing 0x04#7 State.reset)).interrupts.enables = 0x1FFF#13 := by decide

theorem test_insert_edge_keeps_key_order :
    (after .insertEdge (writing 0x20#7 (params 5 0x13 0 0 (staged [edge 5 2 .rise, edge 5 4 .fall] State.reset)))).plan.bankB.entries
      = [edge 5 2 .rise, edge 5 3 .fall, edge 5 4 .fall] := by decide
theorem test_insert_edge_mark_needs_tag :
    (after .insertEdge (writing 0x20#7 (params 5 0x23 0 0 State.reset))).port.code = .config := by decide
theorem test_remove_edge :
    (after .removeEdge (writing 0x21#7 (params 5 4 0 0 (staged [edge 5 2 .rise, edge 5 4 .fall] State.reset)))).plan.bankB.entries
      = [edge 5 2 .rise] := by decide
theorem test_clear_stage_of_empty_bank_keeps_mark :
    (after .clearStage (writing 0x22#7 State.reset)).plan.bankB.table.isSome = true := by decide
theorem test_set_frame_length_clears_mark :
    (after .setFrameLength (writing 0x24#7 (params 16 0 0 0 State.reset))).plan.bankB = ⟨16, [], none⟩ := by decide
theorem test_copy_active_starts :
    (after .copyActive (writing 0x23#7 State.reset)).plan.staging = .copying := by decide
theorem test_copy_completion_sets_copied :
    (after .copyCompletion (staging .copying State.reset)).flag .copied = true := by decide
theorem test_read_stage_entry_layout :
    (after .readStageEntry (writing 0x25#7 (staged [⟨7, 3, .fall, .odd, some 5⟩] State.reset))).port.p1 = 0x0D93#16 := by
  decide
theorem test_read_active_entry_not_found :
    (after .readActiveEntry (writing 0x26#7 State.reset)).port.p2 = 0x8000#16 := by decide

theorem test_commit_notes_the_junction :
    (after .commit (writing 0x27#7 (timebase .running State.reset))).validator = ⟨true, true, .none⟩ := by decide
theorem test_validation_fails_on_repeated_rise :
    (after .validationCompletion (after .commit (writing 0x27#7 (staged [edge 5 2 .rise] State.reset)))).validator.report
      = .fail false .alternation .even 5 2 false := by decide
theorem test_validation_passes_and_swaps :
    (after .validationCompletion (after .commit (writing 0x27#7
      (staged [edge 5 2 .rise, edge 9 2 .fall] State.reset)))).plan.selector = .b := by decide
theorem test_withdraw_too_late :
    (after .withdraw (writing 0x28#7 (State.reset.setLateWithdraw true))).port.code = .tooLate := by decide
theorem test_trip_notice_cancels_commit :
    (after .tripNoticePlanStore (staging .pending tripped)).validator.report = .cancelled .trip := by decide

theorem test_set_timebase_refuses_prescaler_3 :
    (after .setTimebase (writing 0x29#7 (params 3 0 0 1 State.reset))).port.code = .config := by decide
theorem test_set_timebase_prescaler_change_restarts_ages :
    (after .setTimebase (writing 0x29#7 (params 2 0 0 1 State.reset))).lines[7].age = 0 := by decide
theorem test_start_follow_awaits :
    (after .start (writing 0x2A#7 { State.reset with
      timebase := { State.reset.timebase with mode := .follow } })).timebase.state = .awaitSync := by decide
theorem test_stop_lets_the_frame_end :
    (after .stop (writing 0x2B#7 (timebase .running State.reset))).timebase.state = .stopping := by decide
theorem test_tick_walks : (after .tick (after .start (writing 0x2A#7 State.reset))).timebase.tick = 1 := by decide
theorem test_tick_at_the_end_of_a_frame :
    (after .tick { timebase .running State.reset with
      timebase := { State.reset.timebase with state := .running, tick := 999, frameNumber := 0xFFFF#16 } }).timebase.frameNumber
      = 0#16 := by decide
theorem test_sync_in_latches : (after .syncInArrival State.reset).timebase.arrivalLatch = true := by decide
theorem test_sync_timeout_forces_a_boundary :
    (after .syncTimeout { timebase .holding State.reset with
      transit := { State.reset.transit with syncExpiry := true } }).timebase.missCount = 1 := by decide

theorem test_engine_claim_raises_a_clear_line :
    (after .engineClaims (handed [[.rise 1]] (grouped .defer 5 3 State.reset))).lines[1].level = .active := by decide
theorem test_engine_claim_defers_behind_an_active_member :
    (after .engineClaims (handed [[.rise 1]] (zeroActive (grouped .defer 5 3 State.reset)))).groups[0].queue
      = [⟨1, 0⟩] := by decide
theorem test_deferral_expiry_counts :
    (after (.deferralExpiry 0) (oneWaits 3 (zeroActive (grouped .defer 5 3 State.reset)))).groups[0].abandoned = 1 := by
  decide
theorem test_fall_of_a_waiting_line_lets_a_clear_head_rise :
    (after .engineClaims (handed [[.fall 1]] (bothWait (grouped .defer 0 3 State.reset)))).lines[0].level = .active := by
  decide
theorem test_set_line_config_moves_to_rest :
    (after .setLineConfig (writing 0x2C#7 (params 3 0 1 2 State.reset))).lines[3].level = .active := by decide
theorem test_set_line_mode_refuses_unclear_force :
    (after .setLineMode (writing 0x2D#7 (params 1 2 0 0 (zeroActive (grouped .defer 5 3 State.reset))))).port.code
      = .interlock := by decide
theorem test_set_line_mode_forces :
    (after .setLineMode (writing 0x2D#7 (params 1 2 0 0 (grouped .defer 5 3 State.reset)))).lines[1].level = .active := by
  decide
theorem test_set_group_of_one_line_is_refused :
    (after .setGroup (writing 0x2E#7 (params 0 1 0 0 State.reset))).port.code = .config := by decide
theorem test_set_group_names_its_lines :
    (after .setGroup (writing 0x2E#7 (params 0x105 0x8001 9 4 State.reset))).lines[15].group = some 5 := by decide
theorem test_read_line_of_an_ungrouped_line :
    (after .readLine (writing 0x3C#7 State.reset)).port.p2 = 0xFF00#16 := by decide
theorem test_read_group_members :
    (after .readGroup (writing 0x2F#7 (grouped .defer 5 3 State.reset))).port.p0 = 0x0003#16 := by decide
theorem test_clear_notice_stops_the_timebase :
    (after .clearNoticeTimebase (after .clearTrip (writing 0x37#7 tripped))).timebase.state = .stopped := by decide
theorem test_clear_notice_clears_the_indicator :
    (after .clearNoticeLineBlock (after .clearTrip (writing 0x37#7 tripped))).lines[0].level = .inactive := by decide

theorem test_set_slot_refuses_low_above_high :
    (after .setSlot (writing 0x30#7 (params 0 1 11 10 State.reset))).port.code = .config := by decide
theorem test_read_slot_of_power_on :
    (after .readSlot (writing 0x3D#7 (params 7 0 0 0 State.reset))).port.p0 = 0x0707#16 := by decide
theorem test_sample_now_is_taken_at_once :
    (after .sampleNow (writing 0x31#7 State.reset)).converter.state ≠ .idle := by decide
theorem test_sample_request_drops_at_four :
    (after .sampleRequest (queued 4 (converter (.converting ⟨request, 0#12, 0⟩) { State.reset with
      transit := { State.reset.transit with tags := [⟨6, 0#16, 3, 1⟩] } }))).sampler.slots[6].drops = 1 := by decide
theorem test_conversion_clamps_at_zero :
    (after .conversionCompletion (converter (.converting ⟨request, 0#12, 0⟩) { State.reset with
      converter := { State.reset.converter with trim := 3 } })).ring.records = [⟨2, 2, .software, 0, 0, .neither, false⟩] := by
  decide
theorem test_conversion_overflow_marks_gap :
    (after .conversionCompletion (ringed 16 (converter (.converting ⟨request, 5#12, 0⟩) State.reset))).ring.records[15]?
      = some ⟨2, 2, .software, 5, 0, .neither, true⟩ := by decide
theorem test_set_converter_refuses_3 :
    (after .setConverter (writing 0x32#7 (params 3 0 0 0 State.reset))).port.code = .config := by decide
theorem test_calibrate_waits_for_the_conversion :
    (after .calibrate (writing 0x33#7 (converter (.converting ⟨request, 5#12, 0⟩) State.reset))).converter.state
      = .calPending ⟨request, 5#12, 0⟩ := by decide
theorem test_calibration_ends_at_limit :
    (after .calibrationConversion (converter (.calibrating 30 0 2033#12) State.reset)).converter.report = .atLimit := by
  decide
theorem test_cancel_cal_reports :
    (after .cancelCal (writing 0x34#7 (converter (.calibrating 16 3 0#12) State.reset))).converter.report = .cancelled := by
  decide
theorem test_trip_notice_flushes :
    (after .tripNoticeConverter (queued 3 (converter (.converting ⟨request, 0#12, 0⟩) tripped))).sampler.queue = [] := by
  decide
theorem test_interlock_notice_leaves_later_requests :
    (after .tripNoticeConverter { State.reset.sourceTaken (.interlock 0) (some 1) with
      transit := { (State.reset.sourceTaken (.interlock 0) (some 1)).transit with
        tags := [⟨6, 0#16, 3, 1⟩, ⟨7, 0#16, 4, 2⟩] } }).transit.tags = [⟨7, 0#16, 4, 2⟩] := by decide
theorem test_set_ring_sets_results :
    (after .setRing (writing 0x3B#7 (params 2 0 0 0 (ringed 2 State.reset)))).flag .results = true := by decide

theorem test_fault_sample_qualifies_at_q :
    (after (.faultSample 0 true) (faulted ⟨true, .assertHigh, 2, 2, false, none⟩ State.reset)).transit.sources
      = [⟨.fault0, 0⟩] := by decide
theorem test_fault_sample_deasserted_clears :
    (after (.faultSample 0 false) (faulted ⟨true, .assertHigh, 2, 2, true, none⟩ State.reset)).trip.faults[0].qualified
      = false := by decide
theorem test_filter_expiry :
    (after (.filterExpiry 0) (faulted ⟨true, .assertLow, 0, 0, false, none⟩ State.reset)).trip.faults[0].qualified
      = true := by decide
theorem test_set_fault_sets_q :
    (after .setFault (writing 0x35#7 (params 1 0x101 0x0703 1 State.reset))).trip.faults[1]
      = ⟨true, .assertLow, 7, 0, false, none⟩ := by decide
theorem test_trip_source_trips :
    (after (.tripSource .fault1) { State.reset with
      transit := { State.reset.transit with sources := [⟨.fault1, 0⟩] } }).trip.records = [⟨.fault1, none⟩] := by decide
theorem test_trip_stamps_the_running_frame :
    (after .trip (writing 0x36#7 { State.reset with
      timebase := { State.reset.timebase with state := .running, frameNumber := 4#16, tick := 7 } })).trip.records
      = [⟨.software, some (4#16, 7)⟩] := by decide
theorem test_clear_trip_arms : (after .clearTrip (writing 0x37#7 tripped)).trip.state = .armed := by decide
theorem test_read_trip_record_layout :
    (after .readTripRecord (writing 0x38#7 tripped)).port.p0 = 0x0105#16 := by decide
theorem test_clear_counters :
    (after .clearCounters (writing 0x39#7 { State.reset with
      ring := { State.reset.ring with lost := 9 } })).ring.lost = 0 := by decide
theorem test_soft_reset_keeps_the_trip :
    (after .softReset (writing 0x3A#7 tripped)).timebase.state = .halted := by decide
theorem test_soft_reset_abandons_a_copy :
    (after .softReset (writing 0x3A#7 (staging .copying State.reset))).plan.bankB = ⟨1000, [], none⟩ := by decide

/-! ### Witnesses: the hypotheses of each obligation are met -/

theorem witness_StepRunsTheFrontCommand :
    ({ State.reset with pending := [.tick, .trip] }).pending = .tick :: [.trip] ∧ State.reset.pending = [] := by decide

theorem witness_HeldWhileResetIsLow :
    ({ State.reset with rstLow := true }).rstLow = true ∧
    Instr.tick ∉ [Instr.powerOn, .rstAssert, .rstRelease, .csFall, .csRise] ∧
    ({ State.reset with rstLow := true }).port.phase = .idle := by decide

theorem witness_TransactionRunsBetweenEdgesOfCs :
    (State.reset.rstLow = false ∧ State.reset.port.phase = .idle) ∧
    (after .csFall State.reset).port.phase = .command ∧
    ((∀ k : Nat, k < 7 → (0x7F#7).getLsbD k = (0x7F#8).getLsbD k) ∧ (0x7F#8).getLsbD 7 = false) ∧
    ((∀ k : Nat, k < 7 → (0x00#7).getLsbD k = (0x80#8).getLsbD k) ∧ (0x80#8).getLsbD 7 = true ∧ 0x00#7 ≠ 0x10#7) ∧
    ((∀ k : Nat, k < 7 → (0x10#7).getLsbD k = (0x90#8).getLsbD k) ∧ (0x90#8).getLsbD 7 = true) ∧
    ((porting (.reading 0x7F#7) State.reset).rstLow = false ∧
      (porting (.reading 0x7F#7) State.reset).port.phase = .reading 0x7F#7 ∧
      (0x00#7 = if (0x7F#7 : Address) = 0x7F#7 then 0x00#7 else 0x7F#7 + 1#7)) ∧
    ((porting (.reading 0x0F#7) State.reset).port.phase = .reading 0x0F#7 ∧
      (0x10#7 = if (0x0F#7 : Address) = 0x7F#7 then 0x00#7 else 0x0F#7 + 1#7)) := by decide

theorem witness_StatusReadOuts :
    (queued 4 { State.reset with converter := { State.reset.converter with trim := 31 } }).sampler.queue.length ≤ 4 ∧
    ({ State.reset with converter := { State.reset.converter with trim := 31 } }).converter.trim ≤ 31 ∧
    (∀ x ∈ [Report.none, .pass true, .pass false, .fail true .transition .odd 999 15 true, .cancelled .trip,
        .cancelled .softReset], ({ State.reset with validator := ⟨false, false, x⟩ }).validator.report = x) ∧
    ∀ a ∈ [0x0F#7, 0x16#7, 0x3F#7, 0x58#7, 0x7F#7], a = 0x0F#7 ∨ (0x16#7 ≤ a ∧ a ≤ 0x3F#7) ∨ 0x58#7 ≤ a := by decide

theorem witness_WriteWordsReachTheirRegisters :
    (∀ a ∈ [0x00#7, 0x05#7, 0x06#7, 0x07#7, 0x08#7, 0x1F#7, 0x3E#7, 0x7F#7],
      (writing a State.reset).atWord a ∧ a ≠ 0x03#7 ∧ a ≠ 0x04#7 ∧ ¬(0x20#7 ≤ a ∧ a ≤ 0x3D#7)) ∧
    (writing 0x03#7 State.reset).atWord 0x03#7 ∧ (writing 0x04#7 State.reset).atWord 0x04#7 := by
  unfold State.atWord; decide

theorem witness_RecordReadTakesTheHead :
    (let s := ringed 1 (porting .recordDue State.reset)
     s.rstLow = false ∧ s.port.phase = .recordDue ∧ s.ring.records = result :: []) ∧
    ((porting .recordDue State.reset).port.phase = .recordDue ∧
      (porting .recordDue State.reset).ring.records = []) ∧ State.reset.ring.view = none := by decide

theorem witness_ActionsHappenAtTheirAddress :
    Instr.insertEdge.address = some 0x20#7 ∧ Instr.readSlot.address = some 0x3D#7 ∧
    (Instr.iflagWrite 1#16).address = some 0x03#7 ∧ ¬State.reset.atWord 0x20#7 ∧
    (writing 0x20#7 State.reset).atWord 0x20#7 ∧ (writing 0x3D#7 State.reset).atWord 0x3D#7 ∧
    (writing 0x03#7 State.reset).atWord 0x03#7 := by
  unfold State.atWord; decide

/-- The four forms of refused action: any, WITHDRAW, and an entry read-back with NOT_FOUND and with BUSY. -/
theorem witness_RefusedActionsChangeNothing :
    ((writing 0x21#7 State.reset).atWord 0x21#7 ∧ (after .removeEdge (writing 0x21#7 State.reset)).port.code ≠ .ok) ∧
    ((writing 0x28#7 State.reset).atWord 0x28#7 ∧ (after .withdraw (writing 0x28#7 State.reset)).port.code ≠ .ok) ∧
    ((writing 0x25#7 State.reset).atWord 0x25#7 ∧
      (after .readStageEntry (writing 0x25#7 State.reset)).port.code = .notFound) ∧
    (after .readStageEntry (writing 0x25#7 (staging .copying State.reset))).port.code = .busy ∧
    ∀ s : State, exec .removeEdge s = .next (after .removeEdge s) ∧ exec .withdraw s = .next (after .withdraw s) ∧
      exec .readStageEntry s = .next (after .readStageEntry s) := by
  refine ⟨?_, ?_, ?_, ?_, fun s => ⟨rfl, rfl, rfl⟩⟩ <;> (try unfold State.atWord) <;> decide

theorem witness_ActionAddressesRoundTrip :
    Instr.softReset.address = some 0x3A#7 ∧ commandAt 0x3D#7 5#16 = some .readSlot ∧
    commandAt 0x04#7 5#16 = some (.ienableWrite 5#16) := by decide

theorem witness_EntryLayoutRoundTrip :
    ((⟨65535, 15, .mark, .odd, some 7⟩ : Entry).offset < 65536 ∧
      (⟨65535, 15, .mark, .odd, some 7⟩ : Entry).tag ≠ none) ∧
    entryOf 0xFFFF#16 0xFFAF#16 = some ⟨65535, 15, .mark, .odd, some 7⟩ ∧
    entryOf 0#16 0x00F0#16 = none := by decide

theorem witness_RecordLayouts :
    ((⟨7, 8, .edge 0xFFFF#16 65534, 4095, 1023, .above, true⟩ : Result).wait ≤ 1023 ∧
      (⟨7, 8, .edge 0xFFFF#16 65534, 4095, 1023, .above, true⟩ : Result).value ≤ 4095 ∧
      (⟨7, 8, .edge 0xFFFF#16 65534, 4095, 1023, .above, true⟩ : Result).origin = .edge 0xFFFF#16 65534) ∧
    result.origin = .software ∧
    (⟨.limit 7, some (3#16, 9)⟩ : TripRecord).stamp = some (3#16, 9) ∧
    (⟨.software, none⟩ : TripRecord).stamp = none ∧ 4 ≤ 4 := by decide

/-- A staging bank with a rise and a fall is lawful. -/
theorem staged_lawful :
    (staged [edge 5 2 .rise, edge 5 4 .fall] State.reset).plan.stagingPlan.Lawful :=
  ⟨by decide, by decide, by decide, by decide, by decide, by decide⟩

/-- Sixty-four entries of one line, the most a bank can hold. -/
def full : List Entry := (List.range 64).map fun k => edge k 0 .rise

theorem full_lawful : (staged full State.reset).plan.stagingPlan.Lawful :=
  ⟨by decide, by decide, by decide, by decide, by decide, by decide⟩

theorem witness_InsertEdgeChecksAndPlaces :
    (writing 0x20#7 State.reset).atWord 0x20#7 ∧
    (staging .copying (staged [edge 5 2 .rise, edge 5 4 .fall] State.reset)).plan.staging ≠ .editing ∧
    entryOf 0#16 0x0030#16 = none ∧
    (entryOf 1000#16 0x0002#16 = some (edge 1000 2 .rise) ∧
      (staged [edge 5 2 .rise, edge 5 4 .fall] State.reset).plan.stagingPlan.frameLength ≤ 1000) ∧
    (entryOf 5#16 0x0014#16 = some (edge 5 4 .fall) ∧
      ∃ f ∈ (staged [edge 5 2 .rise, edge 5 4 .fall] State.reset).plan.stagingPlan.entries,
        f.offset = 5 ∧ f.line = 4) ∧
    (entryOf 999#16 0x0004#16 = some (edge 999 4 .rise) ∧
      64 ≤ (staged full State.reset).plan.stagingPlan.entries.length ∧
      ¬∃ f ∈ (staged full State.reset).plan.stagingPlan.entries, f.offset = 999 ∧ f.line = 4) ∧
    (¬∃ f ∈ (staged [edge 5 2 .rise, edge 5 4 .fall] State.reset).plan.stagingPlan.entries,
      f.offset = 999 ∧ f.line = 4) := by
  unfold State.atWord; decide

theorem witness_RemoveEdgeRemovesTheKey :
    (writing 0x21#7 State.reset).atWord 0x21#7 ∧
    (params 5 4 0 0 (staged [edge 5 2 .rise, edge 5 4 .fall] State.reset)).plan.staging = .editing ∧
    (edge 5 4 .fall ∈ (staged [edge 5 2 .rise, edge 5 4 .fall] State.reset).plan.stagingPlan.entries ∧
      (edge 5 4 .fall).offset = (params 5 4 0 0 State.reset).port.p0.toNat ∧
      (edge 5 4 .fall).line.val = ((params 5 4 0 0 State.reset).port.p1.extractLsb' 0 4).toNat) ∧
    ∀ e ∈ (staged [edge 5 2 .rise, edge 5 4 .fall] State.reset).plan.stagingPlan.entries,
      ¬(e.offset = (params 6 4 0 0 State.reset).port.p0.toNat ∧
        e.line.val = ((params 6 4 0 0 State.reset).port.p1.extractLsb' 0 4).toNat) := by
  unfold State.atWord; decide

theorem witness_ClearStageAndSetFrameLength :
    ((writing 0x22#7 State.reset).atWord 0x22#7 ∧ (writing 0x24#7 State.reset).atWord 0x24#7) ∧
    (staging .pending State.reset).plan.staging ≠ .editing ∧
    (State.reset.plan.staging = .editing ∧ State.reset.plan.stagingPlan.entries = []) ∧
    (staged full State.reset).plan.stagingPlan.entries ≠ [] ∧
    (params 15 0 0 0 State.reset).port.p0.toNat < 16 ∧
    (∃ e ∈ (staged full State.reset).plan.stagingPlan.entries, (params 63 0 0 0 State.reset).port.p0.toNat ≤ e.offset) ∧
    (16 ≤ (params 64 0 0 0 State.reset).port.p0.toNat ∧
      ∀ e ∈ (staged full State.reset).plan.stagingPlan.entries,
        e.offset < (params 64 0 0 0 State.reset).port.p0.toNat) ∧
    (params 1000 0 0 0 State.reset).port.p0.toNat = State.reset.plan.stagingPlan.frameLength ∧
    (params 64 0 0 0 State.reset).port.p0.toNat ≠ State.reset.plan.stagingPlan.frameLength := by
  unfold State.atWord; decide

theorem witness_CopyTakesTheActivePlan :
    (writing 0x23#7 State.reset).atWord 0x23#7 ∧ (staging .validating State.reset).plan.staging ≠ .editing ∧
    State.reset.plan.staging = .editing ∧ (staging .copying State.reset).plan.staging = .copying ∧
    (staging .copying State.reset).rstLow = false := by
  unfold State.atWord; decide

theorem witness_EntryReadBacks :
    ((writing 0x25#7 State.reset).atWord 0x25#7 ∧ (writing 0x26#7 State.reset).atWord 0x26#7) ∧
    (staging .copying State.reset).plan.staging = .copying ∧ State.reset.plan.staging ≠ .copying ∧
    (staged full State.reset).plan.stagingPlan.entries.length ≤ 64 ∧
    (staged full State.reset).plan.stagingPlan.entries[63]? = some (edge 63 0 .rise) ∧
    (staged full State.reset).plan.stagingPlan.entries.length ≤ 64 ∧
    ({ State.reset with plan := { State.reset.plan with bankA := ⟨1000, full, some .trivial⟩ } }).plan.active.entries[63]?
      = some (edge 63 0 .rise) ∧
    State.reset.plan.active.entries.length ≤ State.reset.port.p0.toNat := by
  unfold State.atWord; decide

theorem witness_CommitStartsValidation :
    (writing 0x27#7 State.reset).atWord 0x27#7 ∧ (staging .pending State.reset).plan.staging ≠ .editing ∧
    (tripped.plan.staging = .editing ∧ tripped.trip.state = .tripped) ∧
    State.reset.plan.staging = .editing ∧ State.reset.trip.state = .armed := by
  unfold State.atWord; decide

/-- Lines 0 and 1 of one group take turns with a gap of 3. -/
def turns : Plan := ⟨20, [edge 0 0 .rise, edge 5 0 .fall, edge 8 1 .rise, edge 17 1 .fall], none⟩

/-- The group table in which lines 0 and 1 form group 0 with this gap. -/
def pair (gap : Nat) : GroupTable := ⟨fun i => if i.val < 2 then some 0 else none, fun _ => gap⟩

/-- Line 0 falls at the last offset of the frames in which it is due, and line 1 rises at offset 0. -/
def late (cadence : Cadence) : Plan := ⟨20, [⟨18, 0, .rise, cadence, none⟩, ⟨19, 0, .fall, cadence, none⟩], none⟩
def early : Plan := ⟨20, [edge 0 1 .rise, edge 5 1 .fall], none⟩

/-- A commit in flight: with the timebase STOPPED, RUNNING, and of a plan that fails. -/
theorem witness_ValidationCompletes :
    ((after .commit (writing 0x27#7 State.reset)).rstLow = false ∧
      (after .commit (writing 0x27#7 State.reset)).plan.staging = .validating ∧
      (after .commit (writing 0x27#7 State.reset)).validator.running = true) ∧
    (validationFailure State.reset.groupTable State.reset.plan.active State.reset.plan.stagingPlan false = none ∧
      State.reset.timebase.state = .stopped) ∧
    (validationFailure State.reset.groupTable State.reset.plan.active State.reset.plan.stagingPlan true = none ∧
      (timebase .running State.reset).timebase.state ≠ .stopped) ∧
    validationFailure State.reset.groupTable State.reset.plan.active ⟨1000, [edge 5 2 .rise], none⟩ false
      = some (.fail false .alternation .even 5 2 false) ∧
    (Plan.firstRepeat ⟨1000, [edge 5 2 .rise], none⟩).isSome = true ∧
    (turns.firstRepeat = none ∧ (turns.firstInterlock (pair 4)).isSome = true ∧ turns.firstInterlock (pair 3) = none) ∧
    (early.firstRepeat = none ∧ early.firstInterlock (pair 3) = none ∧
      (junctionConflict (pair 3) (late .every) early .even).isSome = true ∧
      junctionConflict (pair 3) (late .even) early .even = none ∧
      (junctionConflict (pair 3) (late .even) early .odd).isSome = true ∧
      junctionConflict (pair 3) early early .even = none ∧ junctionConflict (pair 3) early early .odd = none) ∧
    (GroupTable.firstConflict (pair 4) turns.cycle.reverse (turns.twoFrames .even 40)).isSome = true := by decide

/-- A MARK alone; a rise and a fall in every frame; a rise in even and a fall in odd frames alone. -/
theorem witness_StartLevelsFollowTheLastEdge :
    Plan.Lawful ⟨16, [edge 0 2 .rise, ⟨3, 5, .mark, .every, some 0⟩, edge 9 2 .fall], none⟩ ∧
    Plan.Lawful ⟨16, [⟨0, 2, .rise, .even, none⟩], none⟩ ∧
    (∀ e ∈ [edge 0 2 .rise, ⟨3, 5, .mark, .every, some 0⟩, edge 9 2 .fall], e.line = 5 → e.action = .mark) ∧
    ((edge 9 2 .fall).cadence.due Parity.even.other = true ∧
      ∀ f ∈ [edge 0 2 .rise, ⟨3, 5, .mark, .every, some 0⟩, edge 9 2 .fall], f.line = 2 → f.action ≠ .mark →
        f.cadence.due Parity.even.other = true → f.offset ≤ 9) ∧
    ∀ f ∈ [(⟨0, 2, .rise, .even, none⟩ : Entry)], f.line = 2 → f.action ≠ .mark →
      f.cadence.due Parity.even.other = false ∧ f.offset ≤ 0 :=
  ⟨⟨by decide, by decide, by decide, by decide, by decide, by decide⟩,
    ⟨by decide, by decide, by decide, by decide, by decide, by decide⟩, by decide, by decide, by decide⟩

theorem witness_AlternationFindsTheFirstRepeat :
    Plan.Lawful ⟨16, [edge 0 2 .rise, edge 9 2 .fall], none⟩ ∧
    Plan.firstRepeat ⟨16, [edge 0 2 .rise, edge 9 2 .fall], none⟩ = none ∧
    Plan.firstRepeat ⟨16, [edge 4 2 .rise], none⟩ = some ⟨4, 2, true, .even, 4, false⟩ :=
  ⟨⟨by decide, by decide, by decide, by decide, by decide, by decide⟩, by decide, by decide⟩

theorem witness_PassedChecksKeepGroupsApart :
    turns.firstInterlock (pair 3) = none ∧ (pair 3).groupOf 0 = some 0 ∧ (pair 3).groupOf 1 = some 0 ∧
    turns.firstInterlock (pair 4) ≠ none ∧
    turns.cycle.take 1 <+: turns.cycle ∧
    (∃ o ∈ turns.twoFrames .even 40, o.rises = true ∧ o.line = 1) ∧
    (lastFallOf turns.cycle.reverse 0).isSome = true ∧
    junctionConflict (pair 3) turns turns .even = none ∧ junctionConflict (pair 3) turns turns .odd = none := by decide

theorem witness_CommitIsWithdrawnOrCancelled :
    (writing 0x28#7 State.reset).atWord 0x28#7 ∧
    (∀ x ∈ [Staging.editing, .copying, .validating, .pending],
      (staging x tripped).plan.staging = x ∧ (staging x tripped).rstLow = false ∧
      (staging x tripped).transit.planNotices = 0 + 1) := by
  unfold State.atWord; decide

/-! ### The timebase and the engine -/

theorem witness_SetTimebaseTakesFourSettings :
    (writing 0x29#7 State.reset).atWord 0x29#7 ∧
    (timebase .halted State.reset).timebase.state ≠ .stopped ∧ State.reset.timebase.state = .stopped ∧
    (∀ k ∈ [0, 3, 129], (params k 0 0 1 State.reset).port.p0.toNat ∉ [1, 2, 4, 8, 16, 32, 64, 128]) ∧
    1 < (params 1 2 0 1 State.reset).port.p1.toNat ∧ (params 1 0 0 0 State.reset).port.p3.toNat = 0 ∧
    16 < (params 1 0 0 17 State.reset).port.p3.toNat ∧
    (∀ k ∈ [1, 128], (params k 1 65535 16 State.reset).port.p0.toNat ∈ [1, 2, 4, 8, 16, 32, 64, 128] ∧
      (params k 1 65535 16 State.reset).port.p1.toNat ≤ 1 ∧ 1 ≤ (params k 1 65535 16 State.reset).port.p3.toNat ∧
      (params k 1 65535 16 State.reset).port.p3.toNat ≤ 16) ∧
    (params 1 0 0 1 State.reset).port.p0.toNat = State.reset.timebase.prescaler ∧
    (params 128 0 0 1 State.reset).port.p0.toNat ≠ State.reset.timebase.prescaler := by
  unfold State.atWord; decide

theorem witness_StartBeginsOrAwaitsFrameZero :
    (writing 0x2A#7 State.reset).atWord 0x2A#7 ∧ tripped.trip.state = .tripped ∧ State.reset.trip.state = .armed ∧
    (timebase .holding State.reset).timebase.state ≠ .stopped ∧
    (let s := after .clearNoticeTimebase (after .clearTrip (writing 0x37#7 tripped))
     s.trip.state = .armed ∧ s.timebase.state = .stopped ∧ s.tripIndicator = true) ∧
    (State.reset.timebase.state = .stopped ∧ State.reset.tripIndicator = false ∧ State.reset.timebase.mode = .free) ∧
    ({ State.reset with timebase := { State.reset.timebase with mode := .follow } }).timebase.mode = .follow := by
  unfold State.atWord; decide

theorem witness_FrameStartHandsOnStartClaims :
    State.reset.plan.active.Lawful ∧ State.reset.plan.active.table = some .trivial :=
  ⟨⟨by decide, by decide, by decide, by decide, by decide, by decide⟩, rfl⟩

theorem witness_StopEndsTheFrameOrStopsAtOnce :
    (writing 0x2B#7 State.reset).atWord 0x2B#7 ∧
    (∀ x ∈ [TimebaseState.running, .awaitSync, .holding, .stopping, .stopped, .halted],
      (timebase x State.reset).timebase.state = x ∧ (timebase x State.reset).transit.claims = []) := by
  unfold State.atWord; decide

/-- The timebase in a state at a tick, everything quiet. -/
def atTick (x : TimebaseState) (mode : SyncMode) (tick : Nat) (arrival : Bool) : State :=
  { State.reset with timebase := { State.reset.timebase with
      state := x, mode := mode, tick := tick, arrivalLatch := arrival, timeout := 2 } }

/-- The same with line 0 ACTIVE and line 1 waiting behind it. -/
def waitingTick (x : TimebaseState) (mode : SyncMode) (tick : Nat) (arrival : Bool) : State :=
  { oneWaits 2 (zeroActive (grouped .defer 5 4 State.reset)) with timebase := (atTick x mode tick arrival).timebase }

theorem waitingTick_settled (x : TimebaseState) (mode : SyncMode) (tick : Nat) (arrival : Bool) :
    (waitingTick x mode tick arrival).Settled :=
  ⟨rfl, rfl, rfl, (by decide : ∀ g : Fin 6,
    ∀ w ∈ (oneWaits 2 (zeroActive (grouped .defer 5 4 State.reset))).groups[g].queue,
      w.wait < (oneWaits 2 (zeroActive (grouped .defer 5 4 State.reset))).groups[g].limit)⟩

theorem witness_TickWhereTheTimebaseStands :
    (State.reset.Quiet ∧ State.reset.rstLow = false ∧ ∃ v, State.reset.TickBegun v) ∧
    (State.reset.Stands ∧ (atTick .halted .free 4 true).Stands ∧ (atTick .awaitSync .follow 0 false).Stands ∧
      State.Stands { State.reset with timebase := { State.reset.timebase with state := .holding } }) ∧
    (let s := oneWaits 2 (grouped .defer 0 3 State.reset)
     s.Settled ∧ s.Stands ∧ s.rstLow = false ∧ s.environment.late = 0#6 ∧
     State.Settled { s with environment := { s.environment with late := 0x3F#6 } }) ∧
    (let s : State := { oneWaits 2 (grouped .defer 0 3 State.reset) with
       transit := { State.reset.transit with headOwed := 1#6 } }
     s.rstLow = false ∧ s.transit.claims = [] ∧ s.transit.syncExpiry = false ∧
     (∀ g : Fin 6, ∀ w ∈ s.groups[g].queue, w.wait < s.groups[g].limit) ∧
     s.transit.headOwed.getLsbD (0 : Fin 6).val = true) := by
  refine ⟨⟨⟨rfl, rfl, rfl, by decide⟩, rfl, _, State.tickBegun _⟩, ?_, ⟨⟨rfl, rfl, rfl, by decide⟩, ?_, rfl, rfl, ⟨rfl, rfl, rfl, by decide⟩⟩,
    by decide⟩ <;> unfold State.Stands <;> decide

/-- Frames in progress at offset 0 and at L - 2, where a FOLLOW frame comes to hold, with a rise waiting. -/
theorem witness_TickWalksTheFrame :
    (∀ x ∈ [TimebaseState.running, .stopping], (waitingTick x .follow 998 false).Settled ∧
      (waitingTick x .follow 998 false).rstLow = false ∧ (waitingTick x .follow 998 false).timebase.state = x) ∧
    ((waitingTick .running .follow 998 false).timebase.tick + 1 <
        (waitingTick .running .follow 998 false).plan.active.frameLength ∧
      (waitingTick .running .follow 998 false).timebase.arrivalLatch = false) ∧
    ((waitingTick .running .free 0 true).Settled ∧ (waitingTick .running .free 0 true).timebase.mode = .free) ∧
    ((waitingTick .running .free 0 true).plan.bank (waitingTick .running .free 0 true).engine.governing).Lawful ∧
    (∀ e ∈ (State.reset.plan.bank State.reset.engine.governing).entries.take State.reset.engine.cursor, e.offset ≤ 0) ∧
    ∀ e ∈ (State.reset.plan.bank State.reset.engine.governing).entries.drop State.reset.engine.cursor, 0 < e.offset :=
  ⟨fun _ _ => ⟨waitingTick_settled _ _ _ _, rfl, rfl⟩, by decide, ⟨waitingTick_settled _ _ _ _, rfl⟩,
    ⟨by decide, by decide, by decide, by decide, by decide, by decide⟩, by decide, by decide⟩

theorem witness_TickTakesTheBoundary :
    (∀ x ∈ [TimebaseState.running, .stopping], (waitingTick x .free 999 false).timebase.tick + 1 =
      (waitingTick x .free 999 false).plan.active.frameLength ∧
      (waitingTick x .free 999 false).timebase.arrivalLatch = false ∧
      (waitingTick x .free 999 false).timebase.state = x ∧ (waitingTick x .free 999 false).rstLow = false) ∧
    ∀ x mode, (waitingTick x mode 999 false).Settled :=
  ⟨by decide, fun _ _ => waitingTick_settled _ _ _ _⟩

theorem witness_ArrivalsEndFrames :
    (∀ x ∈ [TimebaseState.awaitSync, .holding, .running, .stopping],
      (waitingTick x .follow 0 true).timebase.arrivalLatch = true ∧
      (waitingTick x .follow 0 true).timebase.mode = .follow ∧
      (waitingTick x .follow 0 true).timebase.state = x ∧ (waitingTick x .follow 0 true).rstLow = false) ∧
    (∀ x, (waitingTick x .follow 0 true).Settled) ∧
    (∀ e ∈ (State.reset.plan.bank State.reset.engine.governing).entries.take State.reset.engine.cursor, e.offset ≤ 0) ∧
    ∀ e ∈ (State.reset.plan.bank State.reset.engine.governing).entries.drop State.reset.engine.cursor, 0 < e.offset :=
  ⟨by decide, fun _ => waitingTick_settled _ _ _ _, by decide, by decide⟩

/-- A hold below W, at W, and with the expiry under way for each setting of the SYNC_LOST enable. -/
theorem witness_HoldsCountToTheSyncTimeout :
    ((waitingTick .holding .follow 999 false).Settled ∧ (waitingTick .holding .follow 999 false).timebase.timeoutCount <
      (waitingTick .holding .follow 999 false).timebase.timeout) ∧
    (let s : State := { waitingTick .holding .follow 999 false with
       timebase := { (waitingTick .holding .follow 999 false).timebase with timeoutCount := 2 } }
     s.Settled ∧ s.rstLow = false ∧ s.timebase.state = .holding ∧ s.timebase.arrivalLatch = false ∧
     s.timebase.timeout ≤ s.timebase.timeoutCount) ∧
    (let s : State := { waitingTick .holding .follow 999 false with
       transit := { State.reset.transit with syncExpiry := true } }
     s.rstLow = false ∧ s.timebase.state = .holding ∧ s.transit.syncExpiry = true ∧ s.trip.syncLostEnable = false) ∧
    ({ State.reset with trip := { State.reset.trip with syncLostEnable := true } }).trip.syncLostEnable = true :=
  ⟨⟨waitingTick_settled _ _ _ _, by decide⟩,
    ⟨⟨rfl, rfl, rfl, (waitingTick_settled .holding .follow 999 false).waits⟩, rfl, rfl, rfl, by decide⟩,
    by decide, by decide⟩

/-! ### The line block -/

/-- Line 1 may rise in group 0 exactly when line 0 is down and its fall age has reached the gap. -/
theorem witness_GuardGrantsAndAbandons :
    State.reset.groups[(0 : Fin 6)].queue = [] ∧
    ((oneWaits 2 (grouped .defer 1023 3 State.reset)).groups[(0 : Fin 6)].queue = [⟨1, 2⟩] ∧
      (oneWaits 2 (grouped .defer 1023 3 State.reset)).RiseClear 1) ∧
    ¬(oneWaits 2 (zeroActive (grouped .defer 0 3 State.reset))).RiseClear 1 ∧
    (∀ w ∈ (oneWaits 2 (grouped .defer 0 3 State.reset)).groups[(0 : Fin 6)].queue,
      w.wait < (oneWaits 2 (grouped .defer 0 3 State.reset)).groups[(0 : Fin 6)].limit) ∧
    ((oneWaits 3 (grouped .defer 0 3 State.reset)).groups[(0 : Fin 6)].queue = [] ++ ⟨1, 3⟩ :: [] ∧
      (oneWaits 3 (grouped .defer 0 3 State.reset)).groups[(0 : Fin 6)].limit ≤ 3 ∧
      (oneWaits 3 (grouped .defer 0 3 State.reset)).rstLow = false) := by
  simp only [← State.clear_iff_riseClear]; decide

theorem witness_ClaimsAreTakenInOrderAndLinesFall :
    State.reset.transit.claims = [] ∧ (handed [[]] State.reset).transit.claims = [] :: [] ∧
    ((handed [[.rise 0, .fall 1]] State.reset).transit.claims = (.rise 0 :: [.fall 1]) :: [] ∧
      (handed [[.rise 0, .fall 1]] State.reset).lines[(0 : Fin 16)].mode ≠ .scheduled) ∧
    tripped.tripIndicator = true ∧
    (let s := handed [[.fall 0]] (zeroActive (grouped .defer 0 3 State.reset))
     s.rstLow = false ∧ s.transit.claims = [.fall 0] :: [] ∧ s.tripIndicator = false ∧
     s.lines[(0 : Fin 16)].mode = .scheduled ∧ s.lines[(0 : Fin 16)].group = some 0 ∧
     (∀ w ∈ s.groups[(0 : Fin 6)].queue, w.line ≠ 0) ∧ s.lines[(0 : Fin 16)].level = .active) ∧
    (let s := handed [[.startFall 1 .released]] (oneWaits 2 (grouped .defer 0 3 State.reset))
     s.transit.claims = [.startFall 1 .released] :: [] ∧ s.lines[(1 : Fin 16)].mode = .scheduled ∧
     (∃ w ∈ s.groups[(0 : Fin 6)].queue, w.line = 1) ∧ s.lines[(1 : Fin 16)].level ≠ .active) ∧
    (handed [[.fall 5]] (State.reset.setMode 5 .scheduled)).lines[(5 : Fin 16)].level ≠ .active := by decide

theorem witness_RisesAreJudgedByTheGuard :
    (let s := handed [[.rise 0]] (zeroActive (grouped .defer 0 3 State.reset))
     s.rstLow = false ∧ s.transit.claims = [.rise 0] :: [] ∧ s.tripIndicator = false ∧
     s.lines[(0 : Fin 16)].mode = .scheduled ∧ s.lines[(0 : Fin 16)].level = .active) ∧
    (let s := handed [[.startRise 5]] (State.reset.setMode 5 .scheduled)
     s.lines[(5 : Fin 16)].mode = .scheduled ∧ s.lines[(5 : Fin 16)].group = none ∧
     s.lines[(5 : Fin 16)].level ≠ .active) ∧
    (let s := handed [[.rise 1]] (oneWaits 2 (grouped .defer 0 3 State.reset))
     s.lines[(1 : Fin 16)].group = some 0 ∧ ∃ w ∈ s.groups[(0 : Fin 6)].queue, w.line = 1) ∧
    ((grouped .defer 1023 3 State.reset).groups[(0 : Fin 6)].queue = [] ∧
      (grouped .defer 1023 3 State.reset).RiseClear 1) ∧
    (∀ limit ∈ [0, 1], let s := zeroActive (grouped .defer 0 limit State.reset)
     (∀ w ∈ s.groups[(0 : Fin 6)].queue, w.line ≠ 1) ∧ ¬s.RiseClear 1 ∧ s.groups[(0 : Fin 6)].policy = .defer ∧
     s.groups[(0 : Fin 6)].limit = limit) ∧
    (zeroActive (grouped .trip 0 3 State.reset)).groups[(0 : Fin 6)].policy = .trip ∧
    (handed [[.startRise 1]] (oneWaits 2 (grouped .defer 0 3 State.reset))).transit.claims = [.startRise 1] :: [] := by
  simp only [← State.clear_iff_riseClear]; decide

theorem witness_SetLineConfigWritesTheRecord :
    (writing 0x2C#7 State.reset).atWord 0x2C#7 ∧ tripped.tripIndicator = true ∧
    (State.reset.trip.state = .armed ∧ State.reset.tripIndicator = false ∧ State.reset.timebase.state = .stopped) ∧
    (timebase .running State.reset).timebase.state ≠ .stopped ∧
    (15 < (params 16 0 0 0 State.reset).port.p0.toNat ∧ 1 < (params 0 2 0 0 State.reset).port.p1.toNat ∧
      2 < (params 0 0 3 0 State.reset).port.p2.toNat ∧ 2 < (params 0 0 0 3 State.reset).port.p3.toNat) ∧
    ((params 15 1 2 2 State.reset).port.p0.toNat = (15 : Fin 16).val ∧
      (params 15 1 2 2 State.reset).port.p1.toNat = 1 ∧
      (params 15 1 2 2 State.reset).port.p2.toNat = 2 ∧
      (params 15 1 2 2 State.reset).port.p3.toNat = 2) ∧
    (grouped .defer 0 0 State.reset).lines[(0 : Fin 16)].group ≠ none ∧
    (∀ m ∈ [LineMode.rest, .scheduled, .forcedActive, .forcedInactive],
      (State.reset.setMode 15 m).lines[(15 : Fin 16)].mode = m) := by
  unfold State.atWord; decide

theorem witness_SetLineModeMovesTheLine :
    (writing 0x2D#7 State.reset).atWord 0x2D#7 ∧ tripped.trip.state = .tripped ∧
    (State.reset.trip.state = .armed ∧ State.reset.tripIndicator = false) ∧
    (15 < (params 16 0 0 0 State.reset).port.p0.toNat ∧ 3 < (params 0 4 0 0 State.reset).port.p1.toNat) ∧
    (∀ k ∈ [0, 1, 2, 3], (params 1 k 0 0 State.reset).port.p1.toNat = k) ∧
    (params 1 0 0 0 State.reset).port.p0.toNat = (1 : Fin 16).val ∧
    (let s := zeroActive (grouped .defer 0 3 State.reset)
     s.lines[(0 : Fin 16)].group = some 0 ∧ (∀ w ∈ s.groups[(0 : Fin 6)].queue, w.line ≠ 0) ∧
     s.lines[(0 : Fin 16)].level = .active ∧ ¬s.RiseClear 1 ∧ s.lines[(1 : Fin 16)].level ≠ .active) ∧
    (let s := oneWaits 2 (grouped .defer 0 3 State.reset)
     s.lines[(1 : Fin 16)].group = some 0 ∧ (∃ w ∈ s.groups[(0 : Fin 6)].queue, w.line = 1) ∧
     s.lines[(1 : Fin 16)].level ≠ .active ∧ s.RiseClear 1) ∧
    (State.reset.timebase.state = .stopped ∧ (timebase .running State.reset).timebase.state ≠ .stopped ∧
      (timebase .running State.reset).timebase.state ≠ .awaitSync) ∧
    State.reset.lines[(9 : Fin 16)].group = none := by
  simp only [← State.clear_iff_riseClear, State.atWord]; decide

theorem witness_SetGroupWritesTheGroup :
    (writing 0x2E#7 State.reset).atWord 0x2E#7 ∧ (timebase .halted State.reset).timebase.state ≠ .stopped ∧
    State.reset.timebase.state = .stopped ∧ (staging .pending State.reset).plan.staging = .pending ∧
    State.reset.plan.staging = .editing ∧
    (5 < (params 6 0 0 0 State.reset).port.p0.toNat % 256 ∧ 1 < (params 0x200 0 0 0 State.reset).port.p0.toNat / 256) ∧
    ((params 0x105 0xF000 1023 1023 State.reset).port.p0.toNat = (5 : Fin 6).val + 256 * 1 ∧
      [(12 : Fin 16), 13, 14, 15].Nodup ∧
      (∀ i : Fin 16, i ∈ [(12 : Fin 16), 13, 14, 15] ↔
        (params 0x105 0xF000 1023 1023 State.reset).port.p1.getLsbD i.val = true) ∧
      (params 0x105 0xF000 1023 1023 State.reset).port.p2.toNat ≤ 1023 ∧
      (∀ i ∈ [(12 : Fin 16), 13, 14, 15], State.reset.lines[i].group = none ∧
        State.reset.lines[i].restLevel = .inactive ∧ State.reset.lines[i].safeLevel ≠ .active ∧
        State.reset.lines[i].level ≠ .active)) ∧
    1023 < (params 0 0 1024 0 State.reset).port.p2.toNat ∧
    (∃ i ∈ [(0 : Fin 16), 2], (grouped .defer 0 0 State.reset).lines[i].group ≠ none ∧
      (grouped .defer 0 0 State.reset).lines[i].group ≠ some 5) ∧
    (let s := zeroActive (State.reset.setLine 2 { State.reset.lines[(2 : Fin 16)] with level := .active })
     ∃ i ∈ [(0 : Fin 16), 2], ∃ j ∈ [(0 : Fin 16), 2], i ≠ j ∧ s.lines[i].level = .active ∧
       s.lines[j].level = .active) := by
  unfold State.atWord; decide

theorem witness_LineAndGroupReadBacks :
    (writing 0x3C#7 State.reset).atWord 0x3C#7 ∧ (writing 0x2F#7 State.reset).atWord 0x2F#7 ∧
    15 < (params 16 0 0 0 State.reset).port.p0.toNat ∧
    (params 15 0 0 0 State.reset).port.p0.toNat = (15 : Fin 16).val ∧
    5 < (params 6 0 0 0 State.reset).port.p0.toNat ∧ 1 < (params 5 2 0 0 State.reset).port.p1.toNat ∧
    (params 5 1 0 0 State.reset).port.p0.toNat = (5 : Fin 6).val ∧ (params 5 1 0 0 State.reset).port.p1 = 1#16 ∧
    State.reset.port.p1 = 0#16 := by
  unfold State.atWord; decide

theorem witness_ClearNoticeIsTakenByEachBlock :
    (State.reset.transit.clearTimebase = false ∧ State.reset.transit.clearLines = false ∧ State.reset.rstLow = false) ∧
    (let s := after .clearTrip (writing 0x37#7 tripped)
     s.transit.clearTimebase = true ∧ s.transit.clearLines = true ∧ s.timebase.state = .halted ∧ s.rstLow = false ∧
     (timebase .stopped s).timebase.state ≠ .halted ∧ (timebase .stopped s).transit.clearTimebase = true) := by decide

/-! ### The sampling path -/

theorem witness_SlotsAreWrittenAndReadBack :
    (writing 0x30#7 State.reset).atWord 0x30#7 ∧ (writing 0x3D#7 State.reset).atWord 0x3D#7 ∧
    (7 < (params 8 0 0 0 State.reset).port.p0.toNat % 256 ∧ 8 < (params 0x900 0 0 0 State.reset).port.p0.toNat / 256 ∧
      1 < (params 0 2 0 0 State.reset).port.p1.toNat % 256 ∧ 1 < (params 0 0x200 0 0 State.reset).port.p1.toNat / 256 ∧
      (params 0 1 2 1 State.reset).port.p3.toNat < (params 0 1 2 1 State.reset).port.p2.toNat ∧
      4095 < (params 0 1 0 4096 State.reset).port.p3.toNat) ∧
    ((params 0x807 0x101 4095 4095 State.reset).port.p0.toNat = (7 : Fin 8).val + 256 * (8 : Fin 9).val ∧
      (params 0x807 0x101 4095 4095 State.reset).port.p1.toNat = 1 + 256 * 1 ∧
      (params 0x807 0x101 4095 4095 State.reset).port.p2.toNat ≤ 4095) ∧
    (params 0x1207 0 0 0 State.reset).port.p0.toNat % 256 = (7 : Fin 8).val ∧
    State.reset.sampler.slots[(7 : Fin 8)].window = none ∧
    (after .setSlot (writing 0x30#7 (params 7 1 0 4095 State.reset))).sampler.slots[(7 : Fin 8)].window
      = some ⟨0, 4095⟩ := by
  unfold State.atWord; decide

theorem witness_SampleRequestsArePlacedOrDropped :
    (writing 0x31#7 State.reset).atWord 0x31#7 ∧ 7 < (params 8 0 0 0 State.reset).port.p0.toNat % 256 ∧
    (params 7 0 0 0 State.reset).port.p0.toNat % 256 = (7 : Fin 8).val ∧
    4 ≤ (queued 4 State.reset).sampler.queue.length ∧
    (let s := queued 3 (converter (.converting ⟨request, 0#12, 0⟩) State.reset)
     s.sampler.queue.length < 4 ∧ s.converter.state ≠ .idle) ∧
    (State.reset.converter.state = .idle ∧ State.reset.sampler.queue = []) ∧
    (State.reset.rstLow = false ∧ State.reset.transit.tags = []) ∧
    ({ State.reset with transit := { State.reset.transit with tags := [⟨6, 0#16, 3, 1⟩] } }).transit.tags
      = ⟨6, 0#16, 3, 1⟩ :: [] := by
  unfold State.atWord; decide

theorem witness_ConversionsEndInTheRing :
    State.reset.sampler.queue = [] ∧ (queued 4 State.reset).sampler.queue = request :: List.replicate 3 request ∧
    (State.reset.rstLow = false ∧ State.reset.converter.state = .idle) ∧
    (converter (.converting ⟨request, 4095#12, 1023⟩) (ringed 16 State.reset)).converter.state
      = .converting ⟨request, 4095#12, 1023⟩ ∧
    (converter (.calPending ⟨request, 0#12, 0⟩) State.reset).converter.state = .calPending ⟨request, 0#12, 0⟩ := by decide

theorem witness_ConverterActionsByState :
    ((writing 0x32#7 State.reset).atWord 0x32#7 ∧ (writing 0x33#7 State.reset).atWord 0x33#7 ∧
      (writing 0x34#7 State.reset).atWord 0x34#7) ∧
    (∀ k ∈ [0, 1, 17], (params k 0 0 0 State.reset).port.p0.toNat ∉ [2, 4, 8, 16]) ∧
    (∀ k ∈ [2, 16], (params k 0 0 0 State.reset).port.p0.toNat ∈ [2, 4, 8, 16]) ∧
    State.reset.converter.state = .idle ∧
    (∀ x ∈ [ConverterState.converting ⟨request, 0#12, 0⟩, .calPending ⟨request, 0#12, 0⟩, .calibrating 0 4 0#12],
      (converter x State.reset).converter.state = x ∧ (converter x State.reset).converter.state ≠ .idle) := by
  unfold State.atWord; decide

/-- The reading at which the trial is just kept, and the next one, at bit 4 and at bit 0. -/
theorem witness_CalibrationTriesEachBit :
    State.reset.rstLow = false ∧ State.reset.converter.state = .idle ∧
    (converter (.calibrating 0 4 2048#12) State.reset).converter.state = .calibrating 0 4 2048#12 ∧
    ((2048#12).toNat : Int) + ((0 : Nat) + 2 ^ 4) - 16 ≤ 2048 ∧
    2048 < ((2049#12).toNat : Int) + ((0 : Nat) + 2 ^ 4) - 16 ∧
    (converter (.calibrating 30 0 2034#12) State.reset).converter.state = .calibrating 30 0 2034#12 := by decide

/-- The states of one calibration: one conversion of MREF after another. -/
def calibration : Nat → State
  | 0 => converter (.calibrating 0 4 2040#12) State.reset
  | k + 1 => after .calibrationConversion (calibration k)

theorem witness_CalibrationFindsTheTrim :
    (∃ raw, (calibration 0).converter.state = .calibrating 0 4 raw) ∧
    ∀ k : Nat, k < 5 → (calibration k).rstLow = false ∧
      exec .calibrationConversion (calibration k) = .next (calibration (k + 1)) ∧
      ∀ kept bit raw, (calibration k).converter.state = .calibrating kept bit raw → 0 ≤ raw.toNat ∧ raw.toNat ≤ 4095 := by
  refine ⟨⟨2040#12, rfl⟩, fun k hk => ⟨?_, rfl, fun _ _ raw _ => ⟨Nat.zero_le _, by have := raw.isLt; omega⟩⟩⟩
  interval_cases k <;> rfl

theorem witness_TripNoticeEmptiesTheSamplingPath :
    (State.reset.rstLow = false ∧ State.reset.transit.converterNotices = []) ∧
    (tripped.transit.converterNotices = [none] ∧ tripped.rstLow = false ∧
      ∀ tag ∈ tripped.transit.tags, (none : Option Nat) ≠ some tag.step) ∧
    (let s : State := { State.reset.sourceTaken (.interlock 0) (some 1) with
       transit := { (State.reset.sourceTaken (.interlock 0) (some 1)).transit with
         tags := [⟨5, 0#16, 2, 0⟩, ⟨6, 0#16, 3, 1⟩, ⟨7, 0#16, 4, 2⟩] } }
     let tag : SampleTag := ⟨6, 0#16, 3, 1⟩
     s.rstLow = false ∧ s.transit.converterNotices = some tag.step :: [] ∧
     s.transit.tags = [⟨5, 0#16, 2, 0⟩] ++ tag :: [⟨7, 0#16, 4, 2⟩] ∧
     ∀ other ∈ [(⟨5, 0#16, 2, 0⟩ : SampleTag)], other.step ≠ tag.step) := by decide

theorem witness_SetRingSetsTheWatermark :
    (writing 0x3B#7 State.reset).atWord 0x3B#7 ∧ (params 0 0 0 0 State.reset).port.p0.toNat = 0 ∧
    16 < (params 17 0 0 0 State.reset).port.p0.toNat ∧
    (∀ k ∈ [1, 16], 1 ≤ (params k 0 0 0 State.reset).port.p0.toNat ∧
      (params k 0 0 0 State.reset).port.p0.toNat ≤ 16) := by
  unfold State.atWord; decide

/-! ### The trip controller -/

theorem witness_FaultInputsAreFiltered :
    (∀ f ∈ [(⟨false, .assertHigh, 0, 0, false, none⟩ : FaultInput), ⟨true, .assertLow, 255, 254, false, none⟩,
        ⟨true, .assertLow, 255, 255, false, none⟩, ⟨true, .assertHigh, 0, 0, true, some 8⟩],
      f = (faulted f State.reset).trip.faults[(0 : Fin 2)] ∧ (faulted f State.reset).rstLow = false) ∧
    (true = true ↔ (true = true ↔ FaultPolarity.assertHigh = .assertHigh)) ∧
    (true = true ↔ (false = true ↔ FaultPolarity.assertLow = .assertHigh)) ∧
    (false = true ↔ (true = true ↔ FaultPolarity.assertLow = .assertHigh)) := by decide

theorem witness_SetFaultRestartsChangedFilters :
    (writing 0x35#7 State.reset).atWord 0x35#7 ∧
    (1 < (params 2 0 0 0 State.reset).port.p0.toNat % 256 ∧ 1 < (params 0x200 0 0 0 State.reset).port.p0.toNat / 256 ∧
      1 < (params 0 2 0 0 State.reset).port.p1.toNat % 256 ∧ 1 < (params 0 0x200 0 0 State.reset).port.p1.toNat / 256 ∧
      1 < (params 0 0 0 2 State.reset).port.p3.toNat % 256) ∧
    ((params 1 0x101 0xFF00 0xFF01 State.reset).port.p0.toNat = 1 + 256 * 0 ∧
      (params 1 0x101 0xFF00 0xFF01 State.reset).port.p1.toNat = 1 + 256 * 1 ∧
      (params 1 0x101 0xFF00 0xFF01 State.reset).port.p3.toNat % 256 = 1) := by
  unfold State.atWord; decide

theorem witness_SourcesTripOrAreRecorded :
    (writing 0x36#7 State.reset).atWord 0x36#7 ∧ State.reset.rstLow = false ∧
    (∀ x ∈ [TripSource.syncLost, .interlock 5],
      ({ State.reset with transit := { State.reset.transit with
        sources := [⟨.fault0, 0⟩, ⟨x, 7⟩, ⟨x, 8⟩] } }).transit.sources = [⟨.fault0, 0⟩] ++ ⟨x, 7⟩ :: [⟨x, 8⟩] ∧
      ∀ other ∈ [(⟨.fault0, 0⟩ : SentSource)], other.source ≠ x) ∧
    ∀ sent ∈ State.reset.transit.sources, sent.source ≠ .syncLost := by
  unfold State.atWord; decide

theorem witness_TripIsClearedAndRead :
    ((writing 0x37#7 State.reset).atWord 0x37#7 ∧ (writing 0x38#7 State.reset).atWord 0x38#7) ∧
    State.reset.trip.state = .armed ∧ tripped.trip.state = .tripped ∧
    (∃ i : Fin 2, (faulted ⟨true, .assertHigh, 0, 0, true, none⟩ tripped).trip.faults[i].enabled = true ∧
      (faulted ⟨true, .assertHigh, 0, 0, true, none⟩ tripped).trip.faults[i].qualified = true) ∧
    (∀ i : Fin 2, tripped.trip.faults[i].enabled = true → tripped.trip.faults[i].qualified = false) ∧
    (tripped.trip.records.length ≤ (params 1 0 0 0 tripped).port.p0.toNat) ∧
    (tripped.trip.records = [] ++ ⟨.software, none⟩ :: [] ∧ tripped.port.p0.toNat = ([] : List TripRecord).length) := by
  unfold State.atWord; decide

theorem witness_CountersAndSoftReset :
    (writing 0x39#7 tripped).atWord 0x39#7 ∧ (writing 0x3A#7 tripped).atWord 0x3A#7 := by
  unfold State.atWord; decide

/-! ### The laws: states in the middle of work that meet them -/

/-- A frame in progress: line 0 of group 0 ACTIVE with line 1 waiting behind it, a plan pending, a conversion and a
waiting request, a full ring. -/
def working : State :=
  { ringed 16 (queued 4 (converter (.converting ⟨request, 4095#12, 1023⟩)
      (oneWaits 3 (zeroActive (grouped .defer 1023 3 (staging .pending State.reset)))))) with
    timebase := { State.reset.timebase with state := .running, tick := 999 }
    engine := ⟨.walking, .a, .even, 0#16, 0⟩
    pending := [.tick] }

theorem working_steps : step working = .next (after .tick { working with pending := [] }) := rfl

theorem witness_StepsKeepThePlanStoreLawful :
    working.BanksLawful ∧ working.ActiveMarked ∧ working.SelectorAgrees ∧ working.ValidatorAgrees ∧
      working.TickInFrame ∧ working.EngineInFrame :=
  ⟨⟨⟨by decide, by decide, by decide, by decide, by decide, by decide⟩,
      ⟨by decide, by decide, by decide, by decide, by decide, by decide⟩⟩,
    ⟨by decide, by decide⟩, (by decide : working.plan.selector = .a ↔ working.plan.generation.toNat % 2 = 0),
    (by decide : working.validator.running = true ↔ working.plan.staging = .validating), ⟨by decide, by decide⟩,
    ⟨by decide, by decide, by decide, by decide, by decide, by decide⟩⟩

theorem witness_StepsKeepGroupsSafe : working.GroupsSafe :=
  ⟨by decide, by decide, fun _ h => absurd h List.not_mem_nil⟩

theorem witness_StepsKeepQueuesLawful : working.QueuesLawful :=
  ⟨by decide, by decide, by decide, by decide, by decide, by decide, by decide⟩

theorem witness_StepsKeepCapacities : working.SamplingLaw ∧ working.RingLaw ∧ working.CountersLaw :=
  ⟨⟨by decide, by decide, by decide, trivial⟩, ⟨by decide, by decide, by decide, by decide⟩,
    ⟨by decide, by decide, by decide, by decide, by decide, by decide, by decide, by decide⟩⟩

theorem witness_StepsKeepTheTripLaw :
    ({ tripped with pending := [.engineClaims] }).TripLaw ∧
    step { tripped with pending := [.engineClaims] } = .next (after .engineClaims tripped) :=
  ⟨⟨by decide, by decide, by decide, by decide, by decide, by decide, by decide, by decide, by decide⟩, rfl⟩

/-- A RISE claim for line 1, clear at the gap. -/
def rising : State := handed [[.rise 1]] (grouped .defer 1023 3 State.reset)

theorem witness_MembersRiseOnlyAfterTheGap :
    rising.GroupsSafe ∧ rising.CountersLaw ∧ exec .engineClaims rising = .next (after .engineClaims rising) ∧
    rising.lines[(1 : Fin 16)].level ≠ .active ∧ (after .engineClaims rising).lines[(1 : Fin 16)].level = .active ∧
    (after .engineClaims rising).lines[(1 : Fin 16)].group = some 0 ∧
    (after .engineClaims rising).lines[(0 : Fin 16)].group = some 0 ∧ (0 : Fin 16) ≠ 1 :=
  ⟨⟨by decide, by decide, by
      intro step h c hc
      rcases List.mem_singleton.1 h with rfl
      rcases List.mem_singleton.1 hc with rfl
      trivial⟩,
    ⟨by decide, by decide, by decide, by decide, by decide, by decide, by decide, by decide⟩,
    rfl, by decide, by decide, by decide, by decide, by decide⟩

end Sys2Proof.Tests
end

/-! The laws of the plan store and the frame as predicates of the blocks they speak of, and what each shared operation
does to them: editing and swapping the banks, the frame start and the offset event, the boundary and the tick. -/

namespace Sys2Proof.Machine

/-! ### The law of the plan store (R6, R8, R10, R37, R40) -/

/-- The laws of the banks, the mark, the selector and the validator, read as one law of the plan store next to the
validator's `running`. -/
structure PlanStore.Lawful (p : PlanStore) (running : Bool) : Prop where
  active    : p.active.Lawful
  staged    : p.stagingPlan.Lawful
  marked    : p.active.table.isSome
  waiting   : p.staging = .pending → p.stagingPlan.table.isSome
  selector  : p.selector = .a ↔ p.generation.toNat % 2 = 0
  validator : running = true ↔ p.staging = .validating

/-- A lawful plan may be put into the staging bank while no swap waits. -/
theorem PlanStore.Lawful.withStaging {p : PlanStore} {r : Bool} (h : p.Lawful r) {plan : Plan} (hp : plan.Lawful)
    (hs : p.staging ≠ .pending) : (p.withStaging plan).Lawful r where
  active := by simpa using h.active
  staged := by simpa using hp
  marked := by simpa using h.marked
  waiting := by simpa using fun k => absurd k hs
  selector := by simpa using h.selector
  validator := by simpa using h.validator

/-- The staging state may change to any but PENDING, where the validator's state changes with it. -/
theorem PlanStore.Lawful.setStaging {p : PlanStore} {r r' : Bool} (h : p.Lawful r) {st : Staging} (late : Bool)
    (since : Nat) (hs : st ≠ .pending) (hv : r' = true ↔ st = .validating) :
    PlanStore.Lawful { p with staging := st, lateWithdraw := late, since := since } r' :=
  ⟨h.active, h.staged, h.marked, fun k => absurd k hs, h.selector, hv⟩

/-- Outside VALIDATING the validator is idle. -/
theorem PlanStore.Lawful.idle {p : PlanStore} {r : Bool} (h : p.Lawful r) (hs : p.staging ≠ .validating) :
    r = false :=
  Bool.eq_false_iff.2 fun k => hs (h.validator.1 k)

/-- With the validator idle the staging state may become EDITING or COPYING. -/
theorem PlanStore.Lawful.setIdle {p : PlanStore} {r r' : Bool} (h : p.Lawful r) (st : Staging) (late : Bool)
    (since : Nat) (hs : st = .editing ∨ st = .copying) (idle : r' = false) :
    PlanStore.Lawful { p with staging := st, lateWithdraw := late, since := since } r' := by
  refine h.setStaging late since ?_ ?_ <;> rcases hs with rfl | rfl <;> simp [idle]

/-- A swap may wait once the staging plan has its table. -/
theorem PlanStore.Lawful.setPending {p : PlanStore} {r : Bool} (h : p.Lawful r) (ht : p.stagingPlan.table.isSome) :
    PlanStore.Lawful { p with staging := .pending } false :=
  ⟨h.active, h.staged, h.marked, fun _ => ht, h.selector, by simp⟩

/-- The swap keeps the law: the generation goes on by one and with it the selector turns (R10). -/
theorem PlanStore.Lawful.swap {p : PlanStore} {r : Bool} (h : p.Lawful r) (ht : p.stagingPlan.table.isSome) :
    p.swap.Lawful false where
  active := by simpa using h.staged
  staged := by simpa using h.active
  marked := by simpa using ht
  waiting := by simp [PlanStore.swap]
  selector := by
    have turn : p.selector.other = .a ↔ ¬p.selector = .a := by cases p.selector <;> simp [Bank.other]
    have next : (p.generation + 1#16).toNat % 2 = 0 ↔ ¬p.generation.toNat % 2 = 0 := by
      rw [BitVec.toNat_add, BitVec.toNat_ofNat]; omega
    exact turn.trans ((not_congr h.selector).trans next.symm)
  validator := by simp [PlanStore.swap]

/-! ### The law of the frame (R65, R88 to R90) -/

/-- A frame is in progress. -/
def TimebaseState.inFrame : TimebaseState → Bool
  | .running | .holding | .stopping => true
  | .stopped | .awaitSync | .halted => false

theorem TimebaseState.inFrame_iff (b : TimebaseState) :
    b.inFrame = true ↔ b = .running ∨ b = .holding ∨ b = .stopping := by
  cases b <;> simp [TimebaseState.inFrame]

/-- The engine walks the frame in progress: it reads the active plan, inside the frame, and its cursor splits the list
at the tick. -/
structure Engine.Walks (e : Engine) (p : PlanStore) (b : Timebase) : Prop where
  state   : e.state = .walking
  inside  : b.tick < p.active.frameLength
  governs : e.governing = p.selector
  number  : e.frameNumber = b.frameNumber
  parity  : e.parity = parityOf e.frameNumber
  passed  : ∀ x ∈ p.active.entries.take e.cursor, x.offset ≤ b.tick
  ahead   : ∀ x ∈ p.active.entries.drop e.cursor, b.tick < x.offset

/-- A frame is in progress and the engine walks it, or none is and the engine is IDLE. -/
inductive FrameLaw (p : PlanStore) (b : Timebase) (e : Engine) : Prop
  | inFrame (h : b.state.inFrame = true) (walks : e.Walks p b)
  | between (h : b.state.inFrame = false) (idle : e.state = .idle) (awaits : b.state = .awaitSync → b.tick = 0)

/-- The law of the frame reads the active plan, the timebase's state, tick and frame number, and the engine. -/
theorem FrameLaw.congr {p p' : PlanStore} {b b' : Timebase} {e e' : Engine} (h : FrameLaw p b e)
    (selector : p'.selector = p.selector) (active : p'.active = p.active) (state : b'.state = b.state)
    (tick : b'.tick = b.tick) (number : b'.frameNumber = b.frameNumber) (engine : e' = e) : FrameLaw p' b' e' := by
  subst engine
  cases h with
  | inFrame h w =>
    exact .inFrame (state ▸ h) ⟨w.state, by rw [tick, active]; exact w.inside, w.governs.trans selector.symm,
      w.number.trans number.symm, w.parity, by rw [active, tick]; exact w.passed, by rw [active, tick]; exact w.ahead⟩
  | between h idle awaits =>
    exact .between (state ▸ h) idle (by rw [state, tick]; exact awaits)

/-! ### Both laws of a state -/

/-- The laws that StepsKeepThePlanStoreLawful speaks of. -/
structure State.PlanFrameLaw (s : State) : Prop where
  store : s.plan.Lawful s.validator.running
  frame : FrameLaw s.plan s.timebase s.engine

theorem FrameLaw.tickInFrame {s : State} (h : FrameLaw s.plan s.timebase s.engine) : s.TickInFrame := by
  cases h with
  | inFrame h w => exact ⟨fun _ => w.inside, fun k => by rw [k] at h; cases h⟩
  | between h _ awaits =>
    refine ⟨fun k => ?_, awaits⟩
    rw [← TimebaseState.inFrame_iff, h] at k; cases k

theorem FrameLaw.engineInFrame {s : State} (h : FrameLaw s.plan s.timebase s.engine) : s.EngineInFrame := by
  cases h with
  | inFrame h w =>
    have bank : s.plan.bank s.engine.governing = s.plan.active := by rw [w.governs]; rfl
    exact ⟨iff_of_true w.state ((TimebaseState.inFrame_iff _).1 h), fun _ => w.governs, fun _ => w.number,
      fun _ => w.parity, fun _ => bank ▸ w.passed, fun _ => bank ▸ w.ahead⟩
  | between h idle _ =>
    have still : s.engine.state ≠ .walking := by rw [idle]; decide
    refine ⟨iff_of_false still fun k => ?_, fun k => absurd k still, fun k => absurd k still, fun k => absurd k still,
      fun k => absurd k still, fun k => absurd k still⟩
    rw [← TimebaseState.inFrame_iff, h] at k; cases k

theorem FrameLaw.of_inFrame {s : State} (ht : s.TickInFrame) (he : s.EngineInFrame) :
    FrameLaw s.plan s.timebase s.engine := by
  cases h : s.timebase.state.inFrame with
  | true =>
    have walking := he.walks.2 ((TimebaseState.inFrame_iff _).1 h)
    have bank : s.plan.bank s.engine.governing = s.plan.active := by rw [he.governs walking]; rfl
    exact .inFrame h ⟨walking, ht.inside ((TimebaseState.inFrame_iff _).1 h), he.governs walking, he.number walking,
      he.parity walking, bank ▸ he.passed walking, bank ▸ he.ahead walking⟩
  | false =>
    have still : s.engine.state ≠ .walking := fun k => by
      rw [(TimebaseState.inFrame_iff _).2 (he.walks.1 k)] at h; cases h
    exact .between h (by cases k : s.engine.state <;> simp_all) ht.awaits

/-- `PlanFrameLaw` is the six laws of the statement. -/
theorem State.planFrameLaw_iff (s : State) :
    s.PlanFrameLaw ↔ s.BanksLawful ∧ s.ActiveMarked ∧ s.SelectorAgrees ∧ s.ValidatorAgrees ∧ s.TickInFrame ∧
      s.EngineInFrame := by
  constructor
  · intro ⟨h, f⟩
    exact ⟨(s.plan.both_banks Plan.Lawful).2 ⟨h.active, h.staged⟩, ⟨h.marked, h.waiting⟩, h.selector, h.validator,
      f.tickInFrame, f.engineInFrame⟩
  · intro ⟨banks, marked, selector, validator, tick, engine⟩
    obtain ⟨active, staged⟩ := (s.plan.both_banks Plan.Lawful).1 banks
    exact ⟨⟨active, staged, marked.1, marked.2, selector, validator⟩, .of_inFrame tick engine⟩

/-! ### What leaves both laws alone -/

/-- What the two laws read is the same in both states. -/
structure FrameKept (s t : State) : Prop where
  plan        : t.plan = s.plan
  running     : t.validator.running = s.validator.running
  state       : t.timebase.state = s.timebase.state
  tick        : t.timebase.tick = s.timebase.tick
  frameNumber : t.timebase.frameNumber = s.timebase.frameNumber
  engine      : t.engine = s.engine

theorem FrameKept.refl (s : State) : FrameKept s s := ⟨rfl, rfl, rfl, rfl, rfl, rfl⟩

theorem FrameKept.trans {s t u : State} (h : FrameKept s t) (k : FrameKept t u) : FrameKept s u :=
  ⟨k.plan.trans h.plan, k.running.trans h.running, k.state.trans h.state, k.tick.trans h.tick,
    k.frameNumber.trans h.frameNumber, k.engine.trans h.engine⟩

theorem FrameKept.foldl {α : Type} (f : State → α → State) (hf : ∀ s a, FrameKept s (f s a)) (l : List α) (s : State) :
    FrameKept s (l.foldl f s) := by
  induction l generalizing s with
  | nil => exact .refl s
  | cons a rest ih => exact (hf s a).trans (ih _)

theorem FrameKept.law {s t : State} (h : FrameKept s t) (hs : s.PlanFrameLaw) : t.PlanFrameLaw where
  store := by rw [h.plan, h.running]; exact hs.store
  frame := hs.frame.congr (by rw [h.plan]) (by rw [h.plan]) h.state h.tick h.frameNumber h.engine

theorem LineMoves.frameKept {s t : State} (h : LineMoves s t) : FrameKept s t := by
  have f := h.frame
  exact ⟨f.plan, by rw [f.validator], by rw [f.timebase], by rw [f.timebase], by rw [f.timebase], f.engine⟩

theorem State.setFlagIf_frameKept (s : State) (c : Bool) (f : Flag) : FrameKept s (s.setFlagIf c f) := by
  unfold State.setFlagIf; split <;> constructor <;> rfl

theorem State.moveLine_frameKept (s : State) (x : Fin 16) (level : Level) : FrameKept s (s.moveLine x level) := by
  have set : FrameKept s (s.setLine x (s.lines[x].atLevel level)) := by constructor <;> rfl
  unfold State.moveLine
  split
  · exact set.trans (State.examineFor_moves _ _).frameKept
  · exact set

theorem State.takeClaim_frameKept (s : State) (c : Claim) : FrameKept s (s.takeClaim c) := by
  unfold State.takeClaim
  split
  · exact .refl s
  · cases c with
    | fall x => exact (State.removeWaiting_moves s x).frameKept.trans (State.moveLine_frameKept _ _ _)
    | startFall x target => exact (State.removeWaiting_moves s x).frameKept.trans (State.moveLine_frameKept _ _ _)
    | rise x => exact (State.judgeRise_moves s x).frameKept
    | startRise x => exact (State.removeWaiting_moves s x).frameKept.trans (State.judgeRise_moves _ _).frameKept

theorem State.takeClaimStep_frameKept (s : State) (claims : List Claim) : FrameKept s (s.takeClaimStep claims) :=
  FrameKept.foldl _ State.takeClaim_frameKept _ _

theorem State.takeAllClaims_frameKept (s : State) : FrameKept s s.takeAllClaims :=
  FrameKept.trans (t := { s with transit := { s.transit with claims := [] } }) (by constructor <;> rfl)
    (FrameKept.foldl _ State.takeClaimStep_frameKept _ _)

/-! ### The plan store at boundaries and ticks -/

/-- A store that is untouched, or took the swap that waited, is lawful still. -/
theorem MaySwap.lawful {s t : State} (h : MaySwap s t) (hv : t.validator = s.validator)
    (hs : s.plan.Lawful s.validator.running) : t.plan.Lawful t.validator.running := by
  rw [hv]
  rcases h with h | ⟨hp, h⟩
  · rw [h]; exact hs
  · rw [h, hs.idle (by rw [hp]; decide)]; exact hs.swap (hs.waiting hp)

/-! ### The engine at an offset event and at the frame start (R89, R90, R95) -/

/-- In a list in key order from offset `o` on, what follows the run at `o` lies beyond it. -/
theorem lt_offset_of_mem_dropWhile {o : Nat} {l : List Entry} (sorted : l.Pairwise fun x y => x.offset ≤ y.offset)
    (from_o : ∀ x ∈ l, o ≤ x.offset) : ∀ x ∈ l.dropWhile fun x => x.offset == o, o < x.offset := by
  induction l with
  | nil => intro x hx; cases hx
  | cons a rest ih =>
    rw [List.pairwise_cons] at sorted
    by_cases ha : a.offset = o
    · rw [List.dropWhile_cons_of_pos (by simpa using ha)]
      exact ih sorted.2 fun x hx => from_o x (by simp [hx])
    · rw [List.dropWhile_cons_of_neg (by simpa using ha)]
      have beyond : o < a.offset := by have := from_o a (by simp); omega
      intro x hx
      rcases List.mem_cons.1 hx with rfl | hx
      · exact beyond
      · exact beyond.trans_le (sorted.1 x hx)

theorem Plan.Lawful.sorted_offsets {p : Plan} (h : p.Lawful) : p.entries.Pairwise fun x y => x.offset ≤ y.offset :=
  h.sorted.imp fun k => by omega

/-- The cursor past the run at `o` splits a lawful list at `o`. -/
theorem Engine.run_splits {p : Plan} (h : p.Lawful) (e : Engine) (o : Nat)
    (passed : ∀ x ∈ p.entries.take e.cursor, x.offset ≤ o) (ahead : ∀ x ∈ p.entries.drop e.cursor, o ≤ x.offset) :
    (∀ x ∈ p.entries.take (e.cursor + (e.run p.entries o).length), x.offset ≤ o) ∧
      ∀ x ∈ p.entries.drop (e.cursor + (e.run p.entries o).length), o < x.offset := by
  have sorted : (p.entries.drop e.cursor).Pairwise fun x y => x.offset ≤ y.offset :=
    h.sorted_offsets.sublist (List.drop_sublist _ _)
  have beyond := lt_offset_of_mem_dropWhile sorted ahead
  rw [List.take_add, ← List.drop_drop]
  have split := List.takeWhile_append_dropWhile (p := fun x : Entry => x.offset == o) (l := p.entries.drop e.cursor)
  have taken : (p.entries.drop e.cursor).take (e.run p.entries o).length = e.run p.entries o := by
    conv_lhs => rw [← split]
    exact List.take_left
  have left : (p.entries.drop e.cursor).drop (e.run p.entries o).length
      = (p.entries.drop e.cursor).dropWhile fun x => x.offset == o := by
    conv_lhs => rw [← split]
    exact List.drop_left
  rw [taken, left]
  refine ⟨fun x hx => ?_, beyond⟩
  rcases List.mem_append.1 hx with hx | hx
  · exact passed x hx
  · exact Nat.le_of_eq (by simpa using List.mem_takeWhile_imp hx)

/-- An offset event at the timebase's tick makes the engine walk the frame, when before it no later entry was passed and
no earlier one is ahead (R90). -/
theorem State.offsetEventAfter_walks (s : State) (before : List Claim) (lawful : s.plan.active.Lawful)
    (inside : s.timebase.tick < s.plan.active.frameLength) (state : s.engine.state = .walking)
    (governs : s.engine.governing = s.plan.selector) (number : s.engine.frameNumber = s.timebase.frameNumber)
    (parity : s.engine.parity = parityOf s.engine.frameNumber)
    (passed : ∀ x ∈ s.plan.active.entries.take s.engine.cursor, x.offset ≤ s.timebase.tick)
    (ahead : ∀ x ∈ s.plan.active.entries.drop s.engine.cursor, s.timebase.tick ≤ x.offset) :
    (s.offsetEventAfter before s.timebase.tick).engine.Walks s.plan s.timebase := by
  have plan : s.governingPlan = s.plan.active := by unfold State.governingPlan; rw [governs]; rfl
  have engine : (s.offsetEventAfter before s.timebase.tick).engine = { s.engine with
      cursor := s.engine.cursor + (s.engine.run s.plan.active.entries s.timebase.tick).length } := by rw [← plan]; rfl
  obtain ⟨passed', ahead'⟩ := s.engine.run_splits lawful s.timebase.tick passed ahead
  rw [engine]
  exact ⟨state, inside, governs, number, parity, passed', ahead'⟩

/-- The frame start at tick 0 of a RUNNING timebase makes the engine walk its frame (R95, R98). -/
theorem State.frameStart_law (s : State) (store : s.plan.Lawful s.validator.running)
    (state : s.timebase.state = .running) (tick : s.timebase.tick = 0) :
    (s.frameStart s.timebase.frameNumber).PlanFrameLaw := by
  refine ⟨store, .inFrame (show s.timebase.state.inFrame = true by rw [state]; rfl) ?_⟩
  let t : State := { s with
    engine := ⟨.walking, s.plan.selector, parityOf s.timebase.frameNumber, s.timebase.frameNumber, 0⟩ }
  have walks := State.offsetEventAfter_walks t t.startClaims store.active
    (show s.timebase.tick < _ by rw [tick]; have := store.active.least; exact Nat.lt_of_lt_of_le (by decide) this)
    rfl rfl rfl rfl (by simp [t]) (fun x _ => by show s.timebase.tick ≤ _; rw [tick]; exact Nat.zero_le _)
  rw [show t.timebase.tick = 0 from tick] at walks
  exact walks

/-! ### Boundaries and ticks -/

theorem State.stopLines_frameKept (s : State) : FrameKept s s.stopLines :=
  s.takeAllClaims_frameKept.trans (by constructor <;> rfl)

theorem State.advanceDivider_frameKept (s : State) : FrameKept s s.advanceDivider := by
  unfold State.advanceDivider; split <;> constructor <;> rfl

theorem State.countSkipped_frameKept (s : State) : FrameKept s s.countSkipped :=
  FrameKept.trans (by constructor <;> rfl) (State.setFlagIf_frameKept _ _ _)

theorem State.holdTick_frameKept (s : State) : FrameKept s s.holdTick := by
  unfold State.holdTick; split <;> constructor <;> rfl

/-- STOPPED with the engine IDLE is lawful whatever frame was in progress (R72). -/
theorem State.becomeStopped_law (s : State) (store : s.plan.Lawful s.validator.running) :
    s.becomeStopped.PlanFrameLaw := by
  have kept := State.stopLines_frameKept { s with
    timebase := { s.timebase with state := .stopped }, transit := { s.transit with syncExpiry := false } }
  have state : s.becomeStopped.timebase.state = .stopped := kept.state
  exact ⟨by rw [s.becomeStopped_plan, s.becomeStopped_tickFrame.validator]; exact store,
    .between (by rw [state]; rfl) rfl (by rw [state]; intro k; cases k)⟩

/-- A boundary leaves a new frame at tick 0, or none, over the banks as the boundary notice left them (R75). -/
theorem State.boundary_law (s : State) (store : s.plan.Lawful s.validator.running) : s.boundary.PlanFrameLaw := by
  unfold State.boundary
  simp only
  generalize hv : ({ s with timebase := { s.timebase with
    tick := 0, frameNumber := s.timebase.frameNumber + 1#16, syncOut := true } } : State) = v
  have kept := v.advanceDivider_frameKept
  have tick : v.advanceDivider.timebase.tick = 0 := kept.tick.trans (by rw [← hv])
  have noticed : v.advanceDivider.boundaryNotice.plan.Lawful v.advanceDivider.boundaryNotice.validator.running := by
    refine (State.boundaryNotice_maySwap _).lawful (State.boundaryNotice_tickFrame _).validator ?_
    rw [kept.plan, kept.running, ← hv]; exact store
  split
  · exact State.becomeStopped_law _ noticed
  · refine State.frameStart_law _ noticed rfl ?_
    show v.advanceDivider.boundaryNotice.timebase.tick = 0
    unfold State.boundaryNotice; split <;> exact tick

/-- Frame 0 begins lawfully with the tick counter at 0 (R69). -/
theorem State.beginFrameZero_law (s : State) (store : s.plan.Lawful s.validator.running)
    (tick : s.timebase.tick = 0) : s.beginFrameZero.PlanFrameLaw :=
  State.frameStart_law { s with timebase := { s.timebase with state := .running, syncOut := true } } store rfl tick

/-- The next offset inside the frame keeps the law (R74). -/
theorem State.nextOffset_law (s : State) (store : s.plan.Lawful s.validator.running)
    (walks : s.engine.Walks s.plan s.timebase) (inFrame : s.timebase.state.inFrame = true)
    (inside : s.timebase.tick + 1 < s.frameLength) : s.nextOffset.PlanFrameLaw := by
  have next := State.offsetEventAfter_walks { s with timebase := { s.timebase with tick := s.timebase.tick + 1 } } []
    store.active inside walks.state walks.governs walks.number walks.parity
    (fun x hx => (walks.passed x hx).trans (Nat.le_succ _)) (fun x hx => walks.ahead x hx)
  unfold State.nextOffset
  simp only
  split
  · exact ⟨store, .inFrame rfl
      ⟨next.state, next.inside, next.governs, next.number, next.parity, next.passed, next.ahead⟩⟩
  · exact ⟨store, .inFrame inFrame next⟩

/-- A tick in RUNNING or STOPPING keeps the law (R71, R74). -/
theorem State.walkTick_law (s : State) (hs : s.PlanFrameLaw) (inFrame : s.timebase.state.inFrame = true) :
    s.walkTick.PlanFrameLaw := by
  unfold State.walkTick
  split
  · rename_i inside
    cases hs.frame with
    | inFrame _ walks => exact s.nextOffset_law hs.store walks inFrame inside
    | between h _ _ => rw [inFrame] at h; cases h
  · exact s.boundary_law hs.store

theorem State.boundaryByArrival_law (s : State) (hs : s.PlanFrameLaw) : s.boundaryByArrival.PlanFrameLaw :=
  State.boundary_law _ (s.countSkipped_frameKept.law hs).store

/-- The timebase at a tick keeps the law, whatever its state and with or without an arrival (R74). -/
theorem State.timebaseTick_law (s : State) (arrival : Bool) (hs : s.PlanFrameLaw) :
    (s.timebaseTick arrival).PlanFrameLaw := by
  unfold State.timebaseTick
  split
  case h_1 => exact hs
  case h_2 => exact hs
  case h_3 state =>
    refine s.beginFrameZero_law hs.store ?_
    exact hs.frame.tickInFrame.awaits state
  case h_4 => exact hs
  case h_5 => exact s.boundaryByArrival_law hs
  case h_6 state => exact s.walkTick_law hs (by rw [state]; rfl)
  case h_7 => exact s.boundaryByArrival_law hs
  case h_8 state => exact s.walkTick_law hs (by rw [state]; rfl)
  case h_9 => exact s.boundary_law hs.store
  case h_10 => exact s.holdTick_frameKept.law hs

theorem State.settleSync_law (s : State) (hs : s.PlanFrameLaw) : s.settleSync.PlanFrameLaw := by
  unfold State.settleSync
  split
  · unfold State.syncExpires
    split
    · exact FrameKept.law (by constructor <;> rfl) hs
    · exact FrameKept.law (by constructor <;> rfl) (State.boundary_law
        { s with timebase := { s.timebase with missCount := bump8 s.timebase.missCount } } hs.store)
  · exact hs

theorem State.settleTick_law (s : State) (hs : s.PlanFrameLaw) : s.settleTick.PlanFrameLaw := by
  have owed (t : State) : FrameKept t t.examineOwed :=
    FrameKept.trans (by constructor <;> rfl) t.examineOwed_moves.frameKept
  have expire (t : State) : FrameKept t (allGroups.foldl State.expireGroup t) :=
    .foldl _ (fun u g => (u.expireGroup_moves g).frameKept) _ _
  exact (((State.takeAllClaims_frameKept _).trans (owed _)).trans (expire _)).law (s.settleSync_law hs)

/-- A tick keeps the law: what begins it leaves the frame alone, and the timebase then takes it (R63, R74). -/
theorem State.oneTick_law (s : State) (hs : s.PlanFrameLaw) : s.oneTick.PlanFrameLaw := by
  have begun (t : State) : FrameKept t t.advanceAges.examineAtTick.tickClock := by
    have ages : FrameKept t { t.advanceAges with
        transit := { t.advanceAges.transit with headOwed := t.advanceAges.owedAtTick } } := by constructor <;> rfl
    exact (ages.trans (State.examineAtTick_moves _).frameKept).trans (by constructor <;> rfl)
  exact State.timebaseTick_law _ _ ((begun _).law (s.settleTick_law hs))

end Sys2Proof.Machine

/-! Every command keeps the laws of the plan store and the frame. -/

namespace Sys2Proof.Machine

/-! ### Words, actions and events -/

theorem State.writeWord_law {s t u : State} {a : Address} (hs : s.PlanFrameLaw) (hu : u.PlanFrameLaw)
    (h : s.writeWord a u = .next t) : t.PlanFrameLaw := by
  injection h with h
  subst h
  split
  · exact FrameKept.law (by constructor <;> rfl) hu
  · exact hs

theorem State.action_law {s t : State} {a : Address} {owner : State → State × ResultCode} (hs : s.PlanFrameLaw)
    (ho : (owner s).1.PlanFrameLaw) (h : s.action a owner = .next t) : t.PlanFrameLaw :=
  State.writeWord_law hs (FrameKept.law (by constructor <;> rfl) ho) h

theorem State.event_law {s t u : State} (hs : s.PlanFrameLaw) (hu : u.PlanFrameLaw) (h : s.event u = .next t) :
    t.PlanFrameLaw := by
  injection h with h
  subst h
  split
  · exact hs
  · exact hu

/-! ### The plan store's commands -/

/-- A change of the plan store that leaves the active plan in place keeps the law of the frame. -/
theorem State.PlanFrameLaw.restaged {s t : State} (hs : s.PlanFrameLaw)
    (store : t.plan.Lawful t.validator.running) (selector : t.plan.selector = s.plan.selector)
    (active : t.plan.active = s.plan.active) (timebase : t.timebase = s.timebase) (engine : t.engine = s.engine) :
    t.PlanFrameLaw :=
  ⟨store, hs.frame.congr selector active (by rw [timebase]) (by rw [timebase]) (by rw [timebase]) engine⟩

theorem State.setStaging_law (s : State) {plan : Plan} (hs : s.PlanFrameLaw) (hp : plan.Lawful)
    (staging : s.plan.staging ≠ .pending) : (s.setStaging plan).PlanFrameLaw :=
  hs.restaged (hs.store.withStaging hp staging) (PlanStore.withStaging_selector _ _)
    (PlanStore.withStaging_active _ _) rfl rfl

theorem State.insertEdge_law (s : State) (hs : s.PlanFrameLaw) : s.insertEdge.1.PlanFrameLaw := by
  unfold State.insertEdge
  simp only
  split
  · exact hs
  · rename_i editing
    split
    · exact hs
    · rename_i e entry
      split
      · exact hs
      · rename_i inside
        split
        · exact hs
        · rename_i new
          split
          · exact hs
          · rename_i room
            refine s.setStaging_law hs (hs.store.staged.insert e none (Nat.lt_of_not_le room) (Nat.lt_of_not_le inside)
              (entryOf_tagged entry) ?_) fun k => editing (by rw [k]; decide)
            rintro ⟨f, hf, offset, line⟩
            exact new (List.any_eq_true.2 ⟨f, hf, by simp [Entry.hasKey, offset, line]⟩)

theorem State.removeEdge_law (s : State) (hs : s.PlanFrameLaw) : s.removeEdge.1.PlanFrameLaw := by
  unfold State.removeEdge
  simp only
  split
  · exact hs
  · rename_i editing
    split
    · exact s.setStaging_law hs (hs.store.staged.filter _ _) fun k => editing (by rw [k]; decide)
    · exact hs

theorem State.clearStage_law (s : State) (hs : s.PlanFrameLaw) : s.clearStage.1.PlanFrameLaw := by
  unfold State.clearStage
  simp only
  split
  · exact hs
  · rename_i editing
    split
    · exact hs
    · have empty : Plan.Lawful ⟨s.plan.stagingPlan.frameLength, [], none⟩ := by
        have := hs.store.staged.filter (fun _ => false) none
        rwa [List.filter_false] at this
      exact s.setStaging_law hs empty fun k => editing (by rw [k]; decide)

theorem State.setFrameLength_law (s : State) (hs : s.PlanFrameLaw) : s.setFrameLength.1.PlanFrameLaw := by
  unfold State.setFrameLength
  simp only
  split
  · exact hs
  · rename_i editing
    split
    · exact hs
    · rename_i least
      split
      · exact hs
      · rename_i inside
        split
        · exact hs
        · have staged := hs.store.staged
          refine s.setStaging_law hs ⟨staged.count, staged.sorted, fun e he => ?_, staged.tagged,
            Nat.le_of_not_lt least, ?_⟩ fun k => editing (by rw [k]; decide)
          · refine Nat.lt_of_not_le fun k => inside (List.any_eq_true.2 ⟨e, he, by simpa using k⟩)
          · have := s.port.p0.isLt; show s.port.p0.toNat ≤ 65535; omega

theorem State.copyActive_law (s : State) (hs : s.PlanFrameLaw) : s.copyActive.1.PlanFrameLaw := by
  unfold State.copyActive
  split
  · exact hs
  · rename_i editing
    have idle := hs.store.idle fun k => editing (by rw [k]; decide)
    exact hs.restaged (hs.store.setIdle .copying _ _ (.inr rfl) idle) rfl rfl rfl rfl

theorem State.completeCopy_law (s : State) (hs : s.PlanFrameLaw) : s.completeCopy.PlanFrameLaw := by
  unfold State.completeCopy
  split
  · rename_i copying
    have copied := s.setStaging_law hs hs.store.active (by rw [copying]; decide)
    have idle := hs.store.idle (by rw [copying]; decide)
    exact copied.restaged (copied.store.setIdle .editing _ _ (.inl rfl) idle) rfl rfl rfl rfl
  · exact hs

theorem State.readEntry_frameKept (s : State) (p : Plan) (p3 : Word) : FrameKept s (s.readEntry p p3).1 := by
  unfold State.readEntry; split <;> constructor <;> rfl

theorem State.readStageEntry_frameKept (s : State) : FrameKept s s.readStageEntry.1 := by
  unfold State.readStageEntry
  split
  · exact .refl s
  · exact s.readEntry_frameKept _ _

/-! ### The commit path -/

theorem State.commit_law (s : State) (hs : s.PlanFrameLaw) : s.commit.1.PlanFrameLaw := by
  unfold State.commit
  split
  · exact hs
  · split
    · exact hs
    · exact hs.restaged (hs.store.setStaging _ _ (by decide) (iff_of_true rfl rfl)) rfl rfl rfl rfl

/-- A pass of a validation: the staging plan has its table, and is swapped in at once when no frame is in progress. -/
theorem State.validationPasses_law (s : State) (hs : s.PlanFrameLaw) (validating : s.plan.staging = .validating) :
    s.validationPasses.PlanFrameLaw := by
  have staged : (s.setStaging { s.plan.stagingPlan with table := some s.plan.stagingPlan.derivedTable }).PlanFrameLaw :=
    s.setStaging_law hs (hs.store.staged.withTable _) (by rw [validating]; decide)
  have table : (s.plan.withStaging { s.plan.stagingPlan with
      table := some s.plan.stagingPlan.derivedTable }).stagingPlan.table.isSome := by simp
  unfold State.validationPasses
  simp only
  split
  · rename_i stopped
    refine ⟨staged.store.swap table, ?_⟩
    have state : s.timebase.state = .stopped := by simpa [State.timebaseStopped] using stopped
    cases hs.frame with
    | inFrame h _ => rw [state] at h; cases h
    | between h idle awaits => exact .between h idle awaits
  · exact staged.restaged (staged.store.setPending table) rfl rfl rfl rfl

theorem State.validationFails_law (s : State) (report : Report) (hs : s.PlanFrameLaw) :
    (s.validationFails report).PlanFrameLaw :=
  hs.restaged (hs.store.setIdle .editing _ _ (.inl rfl) rfl) rfl rfl rfl rfl

theorem State.completeValidation_law (s : State) (hs : s.PlanFrameLaw) : s.completeValidation.PlanFrameLaw := by
  unfold State.completeValidation
  split
  · rename_i h
    split
    · exact s.validationPasses_law hs h.1
    · exact s.validationFails_law _ hs
  · exact hs

theorem State.cancelCommit_law (s : State) (cause : CancelCause) (hs : s.PlanFrameLaw) :
    (s.cancelCommit cause).PlanFrameLaw := by
  unfold State.cancelCommit
  split
  · exact hs.restaged (hs.store.setIdle .editing _ _ (.inl rfl) rfl) rfl rfl rfl rfl
  · exact hs

theorem State.withdraw_law (s : State) (hs : s.PlanFrameLaw) : s.withdraw.1.PlanFrameLaw := by
  have cleared : (s.setLateWithdraw false).PlanFrameLaw :=
    hs.restaged ⟨hs.store.active, hs.store.staged, hs.store.marked, hs.store.waiting, hs.store.selector,
      hs.store.validator⟩ rfl rfl rfl rfl
  unfold State.withdraw
  simp only
  split
  · exact hs.restaged (hs.store.setIdle .editing _ _ (.inl rfl) rfl) rfl rfl rfl rfl
  · rename_i pending
    have idle := hs.store.idle (by rw [pending]; decide)
    exact hs.restaged (hs.store.setIdle .editing _ _ (.inl rfl) idle) rfl rfl rfl rfl
  · exact cleared
  · exact cleared

theorem State.planStoreTakesNotice_law (s : State) (hs : s.PlanFrameLaw) : s.planStoreTakesNotice.PlanFrameLaw := by
  unfold State.planStoreTakesNotice
  split
  · exact hs
  · exact State.cancelCommit_law _ _ (FrameKept.law (by constructor <;> rfl) hs)

/-! ### Resets -/

/-- A plan store of power-on, a timebase STOPPED at tick 0 and an IDLE engine are lawful (R15, R86, R106). -/
theorem State.planFrameLaw_of_powerOn {t : State} (plan : t.plan = State.reset.plan)
    (running : t.validator.running = false) (state : t.timebase.state = .stopped) (tick : t.timebase.tick = 0)
    (engine : t.engine.state = .idle) : t.PlanFrameLaw := by
  have bank : Plan.powerOn.Lawful := by constructor <;> decide
  refine ⟨?_, .between (by rw [state]; rfl) engine fun _ => tick⟩
  rw [plan, running]
  exact ⟨bank, bank, rfl, fun _ => rfl, by decide, by decide⟩

theorem State.resetPlanStore_law (s : State) (hs : s.PlanFrameLaw) : s.resetPlanStore.PlanFrameLaw := by
  have ended (t : State) (ht : t.PlanFrameLaw) (idle : t.validator.running = false) :
      ((t.setStagingState .editing).setLateWithdraw false).PlanFrameLaw :=
    ht.restaged (ht.store.setIdle .editing _ _ (.inl rfl) idle) rfl rfl rfl rfl
  unfold State.resetPlanStore
  simp only
  split
  · rename_i copying
    have abandoned : Plan.abandoned.Lawful := by constructor <;> decide
    exact ended _ (s.setStaging_law hs abandoned (by rw [copying]; decide)) (hs.store.idle (by rw [copying]; decide))
  · refine ended _ (s.cancelCommit_law _ hs) ?_
    unfold State.cancelCommit
    split
    · rfl
    · rename_i h
      exact hs.store.idle fun k => h (.inl k)

/-- Out of a frame the engine is IDLE, and any standing state of the timebase is lawful. -/
theorem State.PlanFrameLaw.stands {s t : State} (hs : s.PlanFrameLaw) (plan : t.plan = s.plan)
    (running : t.validator.running = s.validator.running)
    (halted : t.timebase.state = .halted ∨ t.timebase.state = .stopped)
    (idle : t.engine.state = .idle) : t.PlanFrameLaw := by
  refine ⟨by rw [plan, running]; exact hs.store, .between ?_ idle fun k => ?_⟩
  · rcases halted with h | h <;> rw [h] <;> rfl
  · rcases halted with h | h <;> rw [h] at k <;> cases k

theorem Timebase.softReset_stands (t : Timebase) : t.softReset.state = .halted ∨ t.softReset.state = .stopped := by
  unfold Timebase.softReset
  simp only
  split
  · rename_i halted; exact .inl halted
  · exact .inr rfl

/-- A soft reset ends the frame in progress: the timebase is STOPPED or stays HALTED, the engine is IDLE (R87, R107). -/
theorem State.softReset_law (s : State) (hs : s.PlanFrameLaw) : s.softReset.PlanFrameLaw :=
  (s.resetPlanStore_law hs).stands rfl rfl (Timebase.softReset_stands _) rfl

/-! ### The timebase's commands -/

theorem State.applyTimebase_frameKept (s : State) (settings : Nat × SyncMode × Nat × Nat) :
    FrameKept s (s.applyTimebase settings) := by
  unfold State.applyTimebase; simp only; split <;> constructor <;> rfl

theorem State.setTimebase_frameKept (s : State) : FrameKept s s.setTimebase.1 := by
  unfold State.setTimebase
  split
  · exact .refl s
  · split
    · exact .refl s
    · exact s.applyTimebase_frameKept _

theorem State.startTimebase_law (s : State) (hs : s.PlanFrameLaw) : s.startTimebase.1.PlanFrameLaw := by
  unfold State.startTimebase
  split
  · exact hs
  · split
    · exact hs
    · rename_i stopped
      split
      · exact hs
      · simp only
        split
        · exact State.beginFrameZero_law _ hs.store rfl
        · have state : s.timebase.state = .stopped := by simpa [State.timebaseStopped] using stopped
          refine ⟨hs.store, ?_⟩
          cases hs.frame with
          | inFrame h _ => rw [state] at h; cases h
          | between _ idle _ => exact .between rfl idle fun _ => rfl

theorem State.stopTimebase_law (s : State) (hs : s.PlanFrameLaw) : s.stopTimebase.1.PlanFrameLaw := by
  unfold State.stopTimebase
  split
  · rename_i state
    refine ⟨hs.store, ?_⟩
    cases hs.frame with
    | inFrame _ w => exact .inFrame rfl ⟨w.state, w.inside, w.governs, w.number, w.parity, w.passed, w.ahead⟩
    | between h _ _ => rw [state] at h; cases h
  · exact s.becomeStopped_law hs.store
  · exact s.becomeStopped_law hs.store
  · exact hs
  · exact hs
  · exact hs

theorem State.timebaseTakesClear_law (s : State) (hs : s.PlanFrameLaw) : s.timebaseTakesClear.PlanFrameLaw := by
  unfold State.timebaseTakesClear
  split
  · simp only
    split
    · rename_i halted
      refine hs.stands rfl rfl (.inr rfl) ?_
      cases hs.frame with
      | inFrame h _ => rw [halted] at h; cases h
      | between _ idle _ => exact idle
    · exact FrameKept.law (by constructor <;> rfl) hs
  · exact hs

/-! ### The line block's commands -/

theorem State.removeWaiting_frameKept (s : State) (x : Fin 16) : FrameKept s (s.removeWaiting x) :=
  (s.removeWaiting_moves x).frameKept

theorem State.setLineConfig_frameKept (s : State) : FrameKept s s.setLineConfig.1 := by
  have apply (i : Fin 16) (polarity : Polarity) (rest safe : Level) :
      FrameKept s (s.applyLineConfig i polarity rest safe) := by
    unfold State.applyLineConfig
    simp only
    split
    · exact FrameKept.trans (by constructor <;> rfl) (State.moveLine_frameKept _ _ _)
    · constructor <;> rfl
  unfold State.setLineConfig
  split
  · exact .refl s
  · split
    · exact .refl s
    · split
      · exact .refl s
      · split
        · exact .refl s
        · exact apply _ _ _ _

theorem State.setMode_frameKept (s : State) (i : Fin 16) (mode : LineMode) : FrameKept s (s.setMode i mode) := by
  constructor <;> rfl

theorem State.forceActive_frameKept (s : State) (i : Fin 16) : FrameKept s (s.forceActive i).1 := by
  unfold State.forceActive
  split
  · exact s.setMode_frameKept _ _
  · split
    · exact ((s.setMode_frameKept _ _).trans (State.moveLine_frameKept _ _ _)).trans
        (State.removeWaiting_frameKept _ _)
    · exact .refl s

theorem State.applyMode_frameKept (s : State) (i : Fin 16) (mode : LineMode) : FrameKept s (s.applyMode i mode).1 := by
  have leaves (m : LineMode) (level : Level) :
      FrameKept s (((s.setMode i m).removeWaiting i).moveLine i level) :=
    ((s.setMode_frameKept _ _).trans (State.removeWaiting_frameKept _ _)).trans (State.moveLine_frameKept _ _ _)
  unfold State.applyMode
  cases mode with
  | rest => exact leaves _ _
  | scheduled =>
    simp only
    split
    · exact (s.setMode_frameKept _ _).trans (State.moveLine_frameKept _ _ _)
    · exact s.setMode_frameKept _ _
  | forcedActive => exact s.forceActive_frameKept i
  | forcedInactive => exact leaves _ _

theorem State.setLineMode_frameKept (s : State) : FrameKept s s.setLineMode.1 := by
  unfold State.setLineMode
  split
  · exact .refl s
  · split
    · exact s.applyMode_frameKept _ _
    · exact .refl s

theorem State.setGroup_frameKept (s : State) : FrameKept s s.setGroup.1 := by
  unfold State.setGroup
  split
  · exact .refl s
  · split
    · exact .refl s
    · split
      · simp only
        split
        · exact .refl s
        · split
          · exact .refl s
          · split
            · exact .refl s
            · constructor <;> rfl
      · exact .refl s

theorem State.readLine_frameKept (s : State) : FrameKept s s.readLine.1 := by
  unfold State.readLine; split <;> constructor <;> rfl

theorem State.readGroup_frameKept (s : State) : FrameKept s s.readGroup.1 := by
  unfold State.readGroup
  split
  · exact .refl s
  · simp only
    split
    · constructor <;> rfl
    · split <;> constructor <;> rfl

theorem State.lineBlockTakesClaims_frameKept (s : State) : FrameKept s s.lineBlockTakesClaims := by
  unfold State.lineBlockTakesClaims
  split
  · exact .refl s
  · exact FrameKept.trans (by constructor <;> rfl) (State.takeClaimStep_frameKept _ _)

theorem State.lineBlockTakesClear_frameKept (s : State) : FrameKept s s.lineBlockTakesClear := by
  unfold State.lineBlockTakesClear; split <;> constructor <;> rfl

/-! ### The sampling path's commands -/

theorem State.serveQueue_frameKept (s : State) : FrameKept s s.serveQueue := by
  unfold State.serveQueue; split <;> constructor <;> rfl

theorem State.placeRequest_frameKept (s : State) (slot : Fin 8) (origin : Origin) :
    FrameKept s (s.placeRequest slot origin) := by
  unfold State.placeRequest
  simp only
  split
  · exact FrameKept.trans (by constructor <;> rfl) (State.serveQueue_frameKept _)
  · constructor <;> rfl

theorem State.takeTag_frameKept (s : State) (tag : SampleTag) : FrameKept s (s.takeTag tag) := by
  unfold State.takeTag
  split
  · constructor <;> rfl
  · exact s.placeRequest_frameKept _ _

theorem State.samplerTakesTag_frameKept (s : State) : FrameKept s s.samplerTakesTag := by
  unfold State.samplerTakesTag
  split
  · exact .refl s
  · exact FrameKept.trans (by constructor <;> rfl) (State.takeTag_frameKept _ _)

theorem State.takeTagsOf_frameKept (s : State) (step : Nat) : FrameKept s (s.takeTagsOf step) :=
  FrameKept.trans (t := { s with transit := { s.transit with
    tags := s.transit.tags.filter fun t => t.step != step } }) (by constructor <;> rfl)
    (FrameKept.foldl _ State.takeTag_frameKept _ _)

theorem State.samplingTakesNotice_frameKept (s : State) : FrameKept s s.samplingTakesNotice := by
  unfold State.samplingTakesNotice
  split
  · exact .refl s
  · simp only
    split
    · constructor <;> rfl
    · exact (s.takeTagsOf_frameKept _).trans (by constructor <;> rfl)

theorem State.sampleNow_frameKept (s : State) : FrameKept s s.sampleNow.1 := by
  unfold State.sampleNow
  split
  · exact .refl s
  · split
    · exact .refl s
    · exact s.placeRequest_frameKept _ _

theorem State.append_frameKept (s : State) (slot : Fin 8) (channel : Fin 9) (origin : Origin) (value wait : Nat) :
    FrameKept s (s.append slot channel origin value wait) := by
  have source (t : State) (c : Bool) (source : TripSource) : FrameKept t (if c then t.sendSource source else t) := by
    split <;> constructor <;> rfl
  exact FrameKept.trans (FrameKept.trans (FrameKept.trans (by constructor <;> rfl) (State.setFlagIf_frameKept _ _ _))
    (source _ _ _)) (State.setFlagIf_frameKept _ _ _)

theorem State.startTrial_frameKept (s : State) (kept bit : Nat) : FrameKept s (s.startTrial kept bit) := by
  constructor <;> rfl

theorem State.completeConversion_frameKept (s : State) : FrameKept s s.completeConversion := by
  unfold State.completeConversion
  split
  · exact (s.append_frameKept _ _ _ _ _).trans (State.serveQueue_frameKept _)
  · exact (s.append_frameKept _ _ _ _ _).trans (State.startTrial_frameKept _ _ _)
  · exact .refl s
  · exact .refl s

theorem State.completeTrial_frameKept (s : State) : FrameKept s s.completeTrial := by
  unfold State.completeTrial
  split
  · split
    · exact FrameKept.trans (by constructor <;> rfl) (State.serveQueue_frameKept _)
    · exact s.startTrial_frameKept _ _
  · exact .refl s
  · exact .refl s
  · exact .refl s

theorem State.setSlot_frameKept (s : State) : FrameKept s s.setSlot.1 := by
  unfold State.setSlot; split <;> constructor <;> rfl

theorem State.readSlot_frameKept (s : State) : FrameKept s s.readSlot.1 := by
  unfold State.readSlot; split <;> constructor <;> rfl

theorem State.setConverter_frameKept (s : State) : FrameKept s s.setConverter.1 := by
  unfold State.setConverter
  split
  · exact .refl s
  · split <;> constructor <;> rfl

theorem State.calibrate_frameKept (s : State) : FrameKept s s.calibrate.1 := by
  unfold State.calibrate; split <;> constructor <;> rfl

theorem State.cancelCal_frameKept (s : State) : FrameKept s s.cancelCal.1 := by
  unfold State.cancelCal
  split
  · exact FrameKept.trans (by constructor <;> rfl) (State.serveQueue_frameKept _)
  · constructor <;> rfl
  · exact .refl s
  · exact .refl s

theorem State.setRing_frameKept (s : State) : FrameKept s s.setRing.1 := by
  unfold State.setRing
  simp only
  split
  · exact .refl s
  · exact FrameKept.trans (by constructor <;> rfl) (State.setFlagIf_frameKept _ _ _)

/-! ### The trip controller's commands -/

/-- A source taken while ARMED leaves the timebase HALTED and the engine IDLE, one taken while TRIPPED leaves both as
they were (R84, R104, R180). -/
theorem State.takeSource_law (s : State) (sent : SentSource) (hs : s.PlanFrameLaw) :
    (s.takeSource sent).PlanFrameLaw := by
  unfold State.takeSource
  split
  · exact hs.stands rfl rfl (.inl rfl) rfl
  · unfold State.recordSecondary
    split <;> exact FrameKept.law (by constructor <;> rfl) hs

theorem State.controllerTakes_law (s : State) (source : TripSource) (hs : s.PlanFrameLaw) :
    (s.controllerTakes source).PlanFrameLaw := by
  unfold State.controllerTakes
  split
  · exact hs
  · exact State.takeSource_law _ _ (FrameKept.law (by constructor <;> rfl) hs)

theorem State.judgeSample_frameKept (s : State) (i : Fin 2) (asserted : Bool) :
    FrameKept s (s.judgeSample i asserted) := by
  unfold State.judgeSample
  simp only
  split
  · exact .refl s
  · split
    · constructor <;> rfl
    · split
      · exact .refl s
      · split <;> constructor <;> rfl

theorem State.setFault_frameKept (s : State) : FrameKept s s.setFault.1 := by
  unfold State.setFault; split <;> constructor <;> rfl

theorem State.clearTrip_frameKept (s : State) : FrameKept s s.clearTrip.1 := by
  unfold State.clearTrip
  split
  · exact .refl s
  · split <;> constructor <;> rfl

theorem State.readTripRecord_frameKept (s : State) : FrameKept s s.readTripRecord.1 := by
  unfold State.readTripRecord; split <;> constructor <;> rfl

/-! ### The host port's commands -/

theorem State.startReadWord_frameKept (s : State) (a : Address) : FrameKept s (s.startReadWord a) := by
  unfold State.startReadWord; split <;> constructor <;> rfl

theorem State.writeRegister_frameKept (s : State) (a : Address) (word : Word) :
    FrameKept s (s.writeRegister a word) := by
  unfold State.writeRegister; split <;> constructor <;> rfl

theorem execCsFall_law {s t : State} (hs : s.PlanFrameLaw) (h : execCsFall s = .next t) : t.PlanFrameLaw := by
  injection h with h
  subst h
  split
  · split <;> exact FrameKept.law (by constructor <;> rfl) hs
  · exact hs

theorem execCommandByte_law {s t : State} (byte : Byte) (hs : s.PlanFrameLaw)
    (h : execCommandByte byte s = .next t) : t.PlanFrameLaw := by
  refine State.event_law hs ?_ h
  split
  · split
    · exact (s.startReadWord_frameKept _).law hs
    · exact FrameKept.law (by constructor <;> rfl) hs
  · exact hs

theorem execRegisterWrite_law {s t : State} (word : Word) (hs : s.PlanFrameLaw)
    (h : execRegisterWrite word s = .next t) : t.PlanFrameLaw := by
  unfold execRegisterWrite at h
  split at h
  · split at h
    · cases h; exact hs
    · exact State.writeWord_law hs ((s.writeRegister_frameKept _ _).law hs) h
  · exact State.event_law hs ((s.startReadWord_frameKept _).law hs) h
  all_goals cases h; exact hs

theorem execRecordRead_law {s t : State} (hs : s.PlanFrameLaw) (h : execRecordRead s = .next t) : t.PlanFrameLaw := by
  have head : FrameKept s s.readHead := by unfold State.readHead; split <;> constructor <;> rfl
  unfold execRecordRead at h
  split at h
  · exact State.event_law hs ((head.trans (by constructor <;> rfl)).law hs) h
  all_goals cases h; exact hs

/-! ### Every command -/

/-- Every command keeps the laws of the plan store and the frame. -/
theorem exec_planFrameLaw (c : Instr) {s t : State} (hs : s.PlanFrameLaw) (h : exec c s = .next t) :
    t.PlanFrameLaw := by
  cases c with
  | powerOn => cases h; exact State.planFrameLaw_of_powerOn rfl rfl rfl rfl rfl
  | rstAssert => cases h; exact State.planFrameLaw_of_powerOn rfl rfl rfl rfl rfl
  | rstRelease =>
    cases h
    split
    · exact FrameKept.law (by constructor <;> rfl) hs
    · exact hs
  | csFall => exact execCsFall_law hs h
  | commandByte byte => exact execCommandByte_law byte hs h
  | csRise => cases h; exact FrameKept.law (by constructor <;> rfl) hs
  | registerWrite word => exact execRegisterWrite_law word hs h
  | recordRead => exact execRecordRead_law hs h
  | iflagWrite word => exact State.writeWord_law hs (FrameKept.law (by constructor <;> rfl) hs) h
  | ienableWrite word => exact State.writeWord_law hs (FrameKept.law (by constructor <;> rfl) hs) h
  | insertEdge => exact State.action_law hs (s.insertEdge_law hs) h
  | removeEdge => exact State.action_law hs (s.removeEdge_law hs) h
  | clearStage => exact State.action_law hs (s.clearStage_law hs) h
  | setFrameLength => exact State.action_law hs (s.setFrameLength_law hs) h
  | copyActive => exact State.action_law hs (s.copyActive_law hs) h
  | copyCompletion => exact State.event_law hs (s.completeCopy_law hs) h
  | readStageEntry => exact State.action_law hs (s.readStageEntry_frameKept.law hs) h
  | readActiveEntry => exact State.action_law hs ((s.readEntry_frameKept _ _).law hs) h
  | commit => exact State.action_law hs (s.commit_law hs) h
  | validationCompletion => exact State.event_law hs (s.completeValidation_law hs) h
  | withdraw => exact State.action_law hs (s.withdraw_law hs) h
  | tripNoticePlanStore => exact State.event_law hs (s.planStoreTakesNotice_law hs) h
  | setTimebase => exact State.action_law hs (s.setTimebase_frameKept.law hs) h
  | start => exact State.action_law hs (s.startTimebase_law hs) h
  | stop => exact State.action_law hs (s.stopTimebase_law hs) h
  | tick => exact State.event_law hs (s.oneTick_law hs) h
  | syncInArrival => exact State.event_law hs (FrameKept.law (by constructor <;> rfl) hs) h
  | syncTimeout => exact State.event_law hs (s.settleSync_law hs) h
  | engineClaims => exact State.event_law hs (s.lineBlockTakesClaims_frameKept.law hs) h
  | deferralExpiry group => exact State.event_law hs ((s.expireOne_moves group).frameKept.law hs) h
  | setLineConfig => exact State.action_law hs (s.setLineConfig_frameKept.law hs) h
  | setLineMode => exact State.action_law hs (s.setLineMode_frameKept.law hs) h
  | setGroup => exact State.action_law hs (s.setGroup_frameKept.law hs) h
  | readLine => exact State.action_law hs (s.readLine_frameKept.law hs) h
  | readGroup => exact State.action_law hs (s.readGroup_frameKept.law hs) h
  | clearNoticeTimebase => exact State.event_law hs (s.timebaseTakesClear_law hs) h
  | clearNoticeLineBlock => exact State.event_law hs (s.lineBlockTakesClear_frameKept.law hs) h
  | setSlot => exact State.action_law hs (s.setSlot_frameKept.law hs) h
  | readSlot => exact State.action_law hs (s.readSlot_frameKept.law hs) h
  | sampleNow => exact State.action_law hs (s.sampleNow_frameKept.law hs) h
  | sampleRequest => exact State.event_law hs (s.samplerTakesTag_frameKept.law hs) h
  | conversionCompletion => exact State.event_law hs (s.completeConversion_frameKept.law hs) h
  | setConverter => exact State.action_law hs (s.setConverter_frameKept.law hs) h
  | calibrate => exact State.action_law hs (s.calibrate_frameKept.law hs) h
  | calibrationConversion => exact State.event_law hs (s.completeTrial_frameKept.law hs) h
  | cancelCal => exact State.action_law hs (s.cancelCal_frameKept.law hs) h
  | tripNoticeConverter => exact State.event_law hs (s.samplingTakesNotice_frameKept.law hs) h
  | setRing => exact State.action_law hs (s.setRing_frameKept.law hs) h
  | faultSample input pinHigh =>
    exact State.event_law hs (((s.judgeSample_frameKept _ _).trans (by constructor <;> rfl)).law hs) h
  | filterExpiry input =>
    refine State.event_law hs ?_ h
    split
    · exact FrameKept.law (by constructor <;> rfl) hs
    · exact hs
  | setFault => exact State.action_law hs (s.setFault_frameKept.law hs) h
  | tripSource source => exact State.event_law hs (s.controllerTakes_law source hs) h
  | trip => exact State.action_law hs (s.takeSource_law _ hs) h
  | clearTrip => exact State.action_law hs (s.clearTrip_frameKept.law hs) h
  | readTripRecord => exact State.action_law hs (s.readTripRecord_frameKept.law hs) h
  | clearCounters =>
    exact State.action_law (owner := fun u => (u.zeroCounters, .ok)) hs (FrameKept.law (by constructor <;> rfl) hs) h
  | softReset => exact State.action_law (owner := fun u => (u.softReset, .ok)) hs (s.softReset_law hs) h

theorem step_planFrameLaw {s t : State} (hs : s.PlanFrameLaw) (h : step s = .next t) : t.PlanFrameLaw := by
  unfold step at h
  split at h
  · cases h; exact FrameKept.law (by constructor <;> rfl) hs
  · exact exec_planFrameLaw _ (FrameKept.law (by constructor <;> rfl) hs) h

/-- Settles O55: the six laws are one law of the plan store and the frame, and every command keeps it. -/
theorem stepsKeepThePlanStoreLawful : Obligations.StepsKeepThePlanStoreLawful := by
  intro s t banks marked selector validator tick engine h
  have hs := s.planFrameLaw_iff.2 ⟨banks, marked, selector, validator, tick, engine⟩
  exact t.planFrameLaw_iff.1 (step_planFrameLaw hs h)

end Sys2Proof.Machine

/-! Refused actions and the entry read-backs: an owner takes an action or leaves the state as it is, with WITHDRAW and
the two read-backs apart. -/

namespace Sys2Proof.Machine

/-! ### Taken or refused (R196, R197) -/

/-- What an owner answers: the action is taken, or it is refused and the state is as it was. -/
inductive TakenOrKept (s : State) : State × ResultCode → Prop
  | taken (t : State) : TakenOrKept s (t, .ok)
  | refused (code : ResultCode) : TakenOrKept s (s, code)

theorem State.insertEdge_takenOrKept (s : State) : TakenOrKept s s.insertEdge := by
  unfold State.insertEdge
  simp only
  split
  · exact .refused _
  · split
    · exact .refused _
    · split
      · exact .refused _
      · split
        · exact .refused _
        · split
          · exact .refused _
          · exact .taken _

theorem State.removeEdge_takenOrKept (s : State) : TakenOrKept s s.removeEdge := by
  unfold State.removeEdge
  simp only
  split
  · exact .refused _
  · split
    · exact .taken _
    · exact .refused _

theorem State.clearStage_takenOrKept (s : State) : TakenOrKept s s.clearStage := by
  unfold State.clearStage
  simp only
  split
  · exact .refused _
  · split <;> exact .taken _

theorem State.copyActive_takenOrKept (s : State) : TakenOrKept s s.copyActive := by
  unfold State.copyActive
  split
  · exact .refused _
  · exact .taken _

theorem State.setFrameLength_takenOrKept (s : State) : TakenOrKept s s.setFrameLength := by
  unfold State.setFrameLength
  simp only
  split
  · exact .refused _
  · split
    · exact .refused _
    · split
      · exact .refused _
      · split <;> exact .taken _

theorem State.commit_takenOrKept (s : State) : TakenOrKept s s.commit := by
  unfold State.commit
  split
  · exact .refused _
  · split
    · exact .refused _
    · exact .taken _

theorem State.setTimebase_takenOrKept (s : State) : TakenOrKept s s.setTimebase := by
  unfold State.setTimebase
  split
  · exact .refused _
  · split
    · exact .refused _
    · exact .taken _

theorem State.startTimebase_takenOrKept (s : State) : TakenOrKept s s.startTimebase := by
  unfold State.startTimebase
  split
  · exact .refused _
  · split
    · exact .refused _
    · split
      · exact .refused _
      · simp only
        split <;> exact .taken _

theorem State.stopTimebase_takenOrKept (s : State) : TakenOrKept s s.stopTimebase := by
  unfold State.stopTimebase
  split
  case h_5 => exact .refused _
  case h_6 => exact .refused _
  all_goals exact .taken _

theorem State.setLineConfig_takenOrKept (s : State) : TakenOrKept s s.setLineConfig := by
  unfold State.setLineConfig
  split
  · exact .refused _
  · split
    · exact .refused _
    · split
      · exact .refused _
      · split
        · exact .refused _
        · exact .taken _

theorem State.forceActive_takenOrKept (s : State) (i : Fin 16) : TakenOrKept s (s.forceActive i) := by
  unfold State.forceActive
  split
  · exact .taken _
  · split
    · exact .taken _
    · exact .refused _

theorem State.setLineMode_takenOrKept (s : State) : TakenOrKept s s.setLineMode := by
  unfold State.setLineMode
  split
  · exact .refused _
  · split
    · rename_i i mode _ _
      cases mode with
      | forcedActive => exact s.forceActive_takenOrKept i
      | rest => exact .taken _
      | scheduled => exact .taken _
      | forcedInactive => exact .taken _
    · exact .refused _

theorem State.setGroup_takenOrKept (s : State) : TakenOrKept s s.setGroup := by
  unfold State.setGroup
  split
  · exact .refused _
  · split
    · exact .refused _
    · split
      · simp only
        split
        · exact .refused _
        · split
          · exact .refused _
          · split
            · exact .refused _
            · exact .taken _
      · exact .refused _

theorem State.readLine_takenOrKept (s : State) : TakenOrKept s s.readLine := by
  unfold State.readLine
  split
  · exact .refused _
  · exact .taken _

theorem State.readGroup_takenOrKept (s : State) : TakenOrKept s s.readGroup := by
  unfold State.readGroup
  split
  · exact .refused _
  · simp only
    split
    · exact .taken _
    · split
      · exact .taken _
      · exact .refused _

theorem State.setSlot_takenOrKept (s : State) : TakenOrKept s s.setSlot := by
  unfold State.setSlot
  split
  · exact .refused _
  · exact .taken _

theorem State.readSlot_takenOrKept (s : State) : TakenOrKept s s.readSlot := by
  unfold State.readSlot
  split
  · exact .refused _
  · exact .taken _

theorem State.sampleNow_takenOrKept (s : State) : TakenOrKept s s.sampleNow := by
  unfold State.sampleNow
  split
  · exact .refused _
  · split
    · exact .refused _
    · exact .taken _

theorem State.setConverter_takenOrKept (s : State) : TakenOrKept s s.setConverter := by
  unfold State.setConverter
  split
  · exact .refused _
  · split
    · exact .refused _
    · exact .taken _

theorem State.calibrate_takenOrKept (s : State) : TakenOrKept s s.calibrate := by
  unfold State.calibrate
  split
  · exact .taken _
  · exact .taken _
  · exact .refused _
  · exact .refused _

theorem State.cancelCal_takenOrKept (s : State) : TakenOrKept s s.cancelCal := by
  unfold State.cancelCal
  split
  · exact .taken _
  · exact .taken _
  · exact .refused _
  · exact .refused _

theorem State.setRing_takenOrKept (s : State) : TakenOrKept s s.setRing := by
  unfold State.setRing
  simp only
  split
  · exact .refused _
  · exact .taken _

theorem State.setFault_takenOrKept (s : State) : TakenOrKept s s.setFault := by
  unfold State.setFault
  split
  · exact .taken _
  · exact .refused _

theorem State.clearTrip_takenOrKept (s : State) : TakenOrKept s s.clearTrip := by
  unfold State.clearTrip
  split
  · exact .refused _
  · split
    · exact .refused _
    · exact .taken _

theorem State.readTripRecord_takenOrKept (s : State) : TakenOrKept s s.readTripRecord := by
  unfold State.readTripRecord
  split
  · exact .refused _
  · exact .taken _

/-! ### The exceptions -/

/-- WITHDRAW is taken, or refused with the late-withdraw indicator cleared (R57). -/
theorem State.withdraw_takenOrCleared (s : State) :
    s.withdraw.2 = .ok ∨ s.withdraw.1 = { s with plan := { s.plan with lateWithdraw := false } } := by
  unfold State.withdraw
  simp only
  split
  · exact .inl rfl
  · exact .inl rfl
  · exact .inr rfl
  · exact .inr rfl

/-- A read-back of an entry that is there (R11). -/
theorem State.readEntry_found (s : State) (p : Plan) (p3 : Word) {e : Entry}
    (h : p.entries[s.port.p0.toNat]? = some e) :
    s.readEntry p p3 = (s.withParams e.word0 e.word1 p.summary p3, .ok) := by
  unfold State.readEntry; rw [h]; rfl

/-- A read-back past the last entry leaves P0 and P1 (R11). -/
theorem State.readEntry_absent (s : State) (p : Plan) (p3 : Word) (h : p.entries.length ≤ s.port.p0.toNat) :
    s.readEntry p p3 = (s.withParams s.port.p0 s.port.p1 p.summary p3, .notFound) := by
  unfold State.readEntry; rw [List.getElem?_eq_none h]; rfl

theorem State.readStageEntry_copying (s : State) (h : s.plan.staging = .copying) : s.readStageEntry = (s, .busy) := by
  rw [State.readStageEntry, if_pos h]

theorem State.readStageEntry_reads (s : State) (h : s.plan.staging ≠ .copying) :
    s.readStageEntry = s.readEntry s.plan.stagingPlan (BitVec.ofNat 16 s.plan.stagingPlan.frameLength) := by
  rw [State.readStageEntry, if_neg h]

/-- What a refused entry read-back may change: P2 and P3, and these with NOT_FOUND alone (R11). -/
structure ReadBackRefused (s : State) (r : State × ResultCode) : Prop where
  params : r.1 = s.withParams s.port.p0 s.port.p1 r.1.port.p2 r.1.port.p3
  kept   : r.2 ≠ .notFound → r.1.port.p2 = s.port.p2 ∧ r.1.port.p3 = s.port.p3

theorem State.readEntry_refused (s : State) (p : Plan) (p3 : Word) (h : (s.readEntry p p3).2 ≠ .ok) :
    ReadBackRefused s (s.readEntry p p3) := by
  cases k : p.entries[s.port.p0.toNat]? with
  | some e => rw [s.readEntry_found p p3 k] at h; exact absurd rfl h
  | none =>
    rw [s.readEntry_absent p p3 (List.getElem?_eq_none_iff.1 k)]
    exact ⟨rfl, fun n => absurd rfl n⟩

theorem State.readStageEntry_refused (s : State) (h : s.readStageEntry.2 ≠ .ok) :
    ReadBackRefused s s.readStageEntry := by
  by_cases copying : s.plan.staging = .copying
  · rw [s.readStageEntry_copying copying]
    exact ⟨rfl, fun _ => ⟨rfl, rfl⟩⟩
  · rw [s.readStageEntry_reads copying] at h ⊢
    exact s.readEntry_refused _ _ h

/-! ### Refused actions -/

/-- An action whose word completes, and the code it leaves in ACT_RESULT. -/
theorem State.action_answered {s t : State} {a : Address} {owner : State → State × ResultCode} (at_a : s.atWord a)
    (h : s.action a owner = .next t) : t = (owner s).1.acted a (owner s).2 ∧ t.port.code = (owner s).2 := by
  rw [State.action_next at_a] at h
  injection h with h
  exact ⟨h.symm, by rw [← h]; rfl⟩

theorem State.action_refused {s t : State} {a : Address} {owner : State → State × ResultCode} (at_a : s.atWord a)
    (answer : TakenOrKept s (owner s)) (h : s.action a owner = .next t) (code : t.port.code ≠ .ok) :
    t = s.acted a t.port.code := by
  obtain ⟨ht, hc⟩ := State.action_answered at_a h
  rw [hc] at code ⊢
  rw [ht]
  generalize owner s = r at answer code
  cases answer with
  | taken => exact absurd rfl code
  | refused => rfl

theorem State.readBack_refused {s t : State} {a : Address} {owner : State → State × ResultCode} (at_a : s.atWord a)
    (answer : (owner s).2 ≠ .ok → ReadBackRefused s (owner s)) (h : s.action a owner = .next t)
    (code : t.port.code ≠ .ok) :
    t = (s.withParams s.port.p0 s.port.p1 t.port.p2 t.port.p3).acted a t.port.code ∧
      (t.port.code ≠ .notFound → t.port.p2 = s.port.p2 ∧ t.port.p3 = s.port.p3) := by
  obtain ⟨ht, hc⟩ := State.action_answered at_a h
  rw [hc] at code ⊢
  obtain ⟨params, kept⟩ := answer code
  have p2 : t.port.p2 = (owner s).1.port.p2 := by rw [ht]; rfl
  have p3 : t.port.p3 = (owner s).1.port.p3 := by rw [ht]; rfl
  rw [p2, p3, ← params]
  exact ⟨ht, kept⟩

/-- Every action but WITHDRAW and the two entry read-backs is taken or changes nothing but ACT_RESULT. -/
theorem exec_refused {c : Instr} {a : Address} {s t : State} (address : c.address = some a) (action : 0x20#7 ≤ a)
    (at_a : s.atWord a) (h : exec c s = .next t) (code : t.port.code ≠ .ok) (withdraw : c ≠ .withdraw)
    (stage : c ≠ .readStageEntry) (active : c ≠ .readActiveEntry) : t = s.acted a t.port.code := by
  cases c with
  | iflagWrite => cases address; exact absurd action (by decide)
  | ienableWrite => cases address; exact absurd action (by decide)
  | insertEdge => cases address; exact State.action_refused at_a s.insertEdge_takenOrKept h code
  | removeEdge => cases address; exact State.action_refused at_a s.removeEdge_takenOrKept h code
  | clearStage => cases address; exact State.action_refused at_a s.clearStage_takenOrKept h code
  | copyActive => cases address; exact State.action_refused at_a s.copyActive_takenOrKept h code
  | setFrameLength => cases address; exact State.action_refused at_a s.setFrameLength_takenOrKept h code
  | readStageEntry => exact absurd rfl stage
  | readActiveEntry => exact absurd rfl active
  | commit => cases address; exact State.action_refused at_a s.commit_takenOrKept h code
  | withdraw => exact absurd rfl withdraw
  | setTimebase => cases address; exact State.action_refused at_a s.setTimebase_takenOrKept h code
  | start => cases address; exact State.action_refused at_a s.startTimebase_takenOrKept h code
  | stop => cases address; exact State.action_refused at_a s.stopTimebase_takenOrKept h code
  | setLineConfig => cases address; exact State.action_refused at_a s.setLineConfig_takenOrKept h code
  | setLineMode => cases address; exact State.action_refused at_a s.setLineMode_takenOrKept h code
  | setGroup => cases address; exact State.action_refused at_a s.setGroup_takenOrKept h code
  | readGroup => cases address; exact State.action_refused at_a s.readGroup_takenOrKept h code
  | setSlot => cases address; exact State.action_refused at_a s.setSlot_takenOrKept h code
  | sampleNow => cases address; exact State.action_refused at_a s.sampleNow_takenOrKept h code
  | setConverter => cases address; exact State.action_refused at_a s.setConverter_takenOrKept h code
  | calibrate => cases address; exact State.action_refused at_a s.calibrate_takenOrKept h code
  | cancelCal => cases address; exact State.action_refused at_a s.cancelCal_takenOrKept h code
  | setFault => cases address; exact State.action_refused at_a s.setFault_takenOrKept h code
  | trip => cases address; exact State.action_refused (owner := State.trips) at_a (.taken _) h code
  | clearTrip => cases address; exact State.action_refused at_a s.clearTrip_takenOrKept h code
  | readTripRecord => cases address; exact State.action_refused at_a s.readTripRecord_takenOrKept h code
  | clearCounters =>
    cases address; exact State.action_refused (owner := fun u => (u.zeroCounters, .ok)) at_a (.taken _) h code
  | softReset =>
    cases address; exact State.action_refused (owner := fun u => (u.softReset, .ok)) at_a (.taken _) h code
  | setRing => cases address; exact State.action_refused at_a s.setRing_takenOrKept h code
  | readLine => cases address; exact State.action_refused at_a s.readLine_takenOrKept h code
  | readSlot => cases address; exact State.action_refused at_a s.readSlot_takenOrKept h code
  | _ => cases address

/-- Settles O9: each owner takes its action or leaves the state, and the three exceptions are judged apart. -/
theorem refusedActionsChangeNothing : Obligations.RefusedActionsChangeNothing := by
  intro c a s t address action at_a h code
  refine ⟨exec_refused address action at_a h code, ?_, ?_⟩
  · rintro rfl
    cases address
    obtain ⟨ht, hc⟩ := State.action_answered (owner := State.withdraw) at_a h
    rcases s.withdraw_takenOrCleared with taken | cleared
    · exact absurd (hc.trans taken) code
    · rw [hc, ← cleared]; exact ht
  · rintro (rfl | rfl) <;> cases address
    · exact State.readBack_refused at_a s.readStageEntry_refused h code
    · exact State.readBack_refused (owner := State.readActiveEntry) at_a (s.readEntry_refused _ _) h code

/-! ### The entry read-backs (R11 to R13, R199) -/

/-- Bits 14 to 0 of the summary are the entry count of a bank (R199). -/
theorem Plan.summary_count (p : Plan) (h : p.entries.length ≤ 64) :
    (p.summary.extractLsb' 0 15).toNat = p.entries.length := by
  rw [Plan.summary, BitVec.extractLsb'_toNat, BitVec.toNat_ofNat]
  unfold bitOf
  split <;> omega

/-- Bit 15 of the summary is the validated mark (R199). -/
theorem Plan.summary_mark (p : Plan) (h : p.entries.length ≤ 64) : p.summary.getLsbD 15 = p.table.isSome := by
  rw [Plan.summary, BitVec.getLsbD_ofNat, Nat.testBit_eq_decide_div_mod_eq]
  cases p.table.isSome <;> simp [bitOf] <;> omega

theorem exec_readStageEntry (s : State) (h : s.atWord 0x25#7) :
    exec .readStageEntry s = .next (s.readStageEntry.1.acted 0x25#7 s.readStageEntry.2) :=
  State.action_next h State.readStageEntry

theorem exec_readActiveEntry (s : State) (h : s.atWord 0x26#7) :
    exec .readActiveEntry s = .next (s.readActiveEntry.1.acted 0x26#7 s.readActiveEntry.2) :=
  State.action_next h State.readActiveEntry

/-- Settles O17: the two read-backs are one read-back of a plan, whose P2 is the plan's summary. -/
theorem entryReadBacks : Obligations.EntryReadBacks := by
  refine ⟨fun s h => ⟨fun copying => ?_, fun reads count => ?_⟩, fun s h count => ?_⟩
  · rw [exec_readStageEntry s h, s.readStageEntry_copying copying]
  · refine ⟨s.plan.stagingPlan.summary, Plan.summary_count _ count, Plan.summary_mark _ count, fun e found => ?_,
      fun absent => ?_⟩ <;> rw [exec_readStageEntry s h, s.readStageEntry_reads reads]
    · rw [s.readEntry_found _ _ found]
    · rw [s.readEntry_absent _ _ absent]
  · refine ⟨s.plan.active.summary, Plan.summary_count _ count, Plan.summary_mark _ count, fun e found => ?_,
      fun absent => ?_⟩ <;> rw [exec_readActiveEntry s h, State.readActiveEntry]
    · rw [s.readEntry_found _ _ found]
    · rw [s.readEntry_absent _ _ absent]

end Sys2Proof.Machine

/-! The derived start levels: a frame's occurrences and their order, and the last of them for a line. -/

namespace Sys2Proof.Machine

/-! ### The occurrences of a frame (R41) -/

theorem mem_insertOccurrence (o u : Occurrence) (l : List Occurrence) :
    u ∈ insertOccurrence o l ↔ u = o ∨ u ∈ l := by
  induction l with
  | nil => simp [insertOccurrence]
  | cons a rest ih => unfold insertOccurrence; split <;> simp [ih]; tauto

theorem mem_inCycleOrder (u : Occurrence) (l : List Occurrence) : u ∈ inCycleOrder l ↔ u ∈ l := by
  induction l with
  | nil => rfl
  | cons a rest ih => simp [inCycleOrder, mem_insertOccurrence, ih]

theorem Occurrence.time_le_of_before {o u : Occurrence} (h : o.before u = true) : o.time ≤ u.time := by
  simp only [Occurrence.before, Bool.or_eq_true, decide_eq_true_eq, Bool.and_eq_true, beq_iff_eq] at h
  omega

theorem Occurrence.time_le_of_not_before {o u : Occurrence} (h : ¬o.before u = true) : u.time ≤ o.time := by
  simp only [Occurrence.before, Bool.or_eq_true, decide_eq_true_eq, not_or] at h
  omega

theorem insertOccurrence_times (o : Occurrence) {l : List Occurrence} (h : l.Pairwise fun x y => x.time ≤ y.time) :
    (insertOccurrence o l).Pairwise fun x y => x.time ≤ y.time := by
  induction l with
  | nil => exact List.pairwise_singleton _ _
  | cons a rest ih =>
    obtain ⟨first, sorted⟩ := List.pairwise_cons.1 h
    unfold insertOccurrence
    split
    · rename_i before
      refine List.pairwise_cons.2 ⟨fun u hu => ?_, ih sorted⟩
      rcases (mem_insertOccurrence o u rest).1 hu with rfl | hu
      · exact Occurrence.time_le_of_before before
      · exact first u hu
    · rename_i not_before
      have front := Occurrence.time_le_of_not_before not_before
      refine List.pairwise_cons.2 ⟨fun u hu => ?_, h⟩
      rcases List.mem_cons.1 hu with rfl | hu
      · exact front
      · exact front.trans (first u hu)

/-- Cycle order never goes back in time. -/
theorem inCycleOrder_times (l : List Occurrence) : (inCycleOrder l).Pairwise fun x y => x.time ≤ y.time := by
  induction l with
  | nil => exact List.Pairwise.nil
  | cons a rest ih => exact insertOccurrence_times a ih

/-- The occurrence of a RISE or FALL entry in a frame that begins at `base`. -/
def Entry.occurs (e : Entry) (parity : Parity) (base : Nat) : Occurrence :=
  ⟨base + e.offset, e.line, e.action == .rise, parity, e.offset, false⟩

theorem Plan.mem_frameOccurrences (p : Plan) (parity : Parity) (base : Nat) (o : Occurrence) :
    o ∈ p.frameOccurrences parity base ↔
      ∃ e ∈ p.entries, e.cadence.due parity = true ∧ e.action ≠ .mark ∧ o = e.occurs parity base := by
  have one (e : Entry) : e.occurrence parity base = some o ↔
      e.cadence.due parity = true ∧ e.action ≠ .mark ∧ o = e.occurs parity base := by
    unfold Entry.occurrence
    split
    · rename_i h
      simp only [Entry.due, Bool.and_eq_true, bne_iff_ne] at h
      simp [h, Entry.occurs, eq_comm]
    · rename_i h
      simp only [Entry.due, Bool.and_eq_true, bne_iff_ne, not_and] at h
      simpa using fun due action => absurd action (h due)
  simp only [Plan.frameOccurrences, mem_inCycleOrder, List.mem_filterMap, one]

/-- The occurrences of two frames follow each other in time: every offset lies inside the frame. -/
theorem Plan.twoFrames_times (p : Plan) (h : p.Lawful) (first : Parity) :
    (p.twoFrames first 0).Pairwise fun x y => x.time ≤ y.time := by
  refine List.pairwise_append.2 ⟨inCycleOrder_times _, inCycleOrder_times _, fun o ho u hu => ?_⟩
  obtain ⟨e, he, _, _, rfl⟩ := (p.mem_frameOccurrences _ _ _).1 ho
  obtain ⟨f, _, _, _, rfl⟩ := (p.mem_frameOccurrences _ _ _).1 hu
  have := h.inside e he
  simp only [Entry.occurs]
  omega

/-! ### The last occurrence of a line (R43) -/

theorem lastOf_none {l : List Occurrence} {line : Fin 16} (h : ∀ o ∈ l, o.line ≠ line) :
    lastOf l.reverse line = none :=
  List.find?_eq_none.2 fun o ho => by simpa using h o (List.mem_reverse.1 ho)

/-- The last occurrence of a line in a list that never goes back in time is the one after all others. -/
theorem lastOf_eq {l : List Occurrence} (sorted : l.Pairwise fun x y => x.time ≤ y.time) {o : Occurrence} (ho : o ∈ l)
    (last : ∀ u ∈ l, u.line = o.line → u ≠ o → u.time < o.time) : lastOf l.reverse o.line = some o := by
  cases k : lastOf l.reverse o.line with
  | none => exact absurd (List.find?_eq_none.1 k o (List.mem_reverse.2 ho)) (by simp)
  | some b =>
    obtain ⟨line, later, earlier, split, others⟩ := List.find?_eq_some_iff_append.1 k
    simp only [beq_iff_eq] at line
    by_contra other
    have hb : b ≠ o := fun e => other (by rw [e])
    have in_l : b ∈ l := List.mem_reverse.1 (split ▸ by simp)
    have after := last b in_l line hb
    have behind : o ∈ earlier := by
      have : o ∈ later ++ b :: earlier := split ▸ List.mem_reverse.2 ho
      rcases List.mem_append.1 this with h | h
      · exact absurd (others o h) (by simp)
      · exact (List.mem_cons.1 h).resolve_left (Ne.symm hb)
    have sorted' := List.pairwise_reverse.2 sorted
    rw [split] at sorted'
    have := (List.pairwise_cons.1 (List.pairwise_append.1 sorted').2.1).1 o behind
    omega

/-! ### The start level of a line (R7, R43) -/

theorem Plan.derivedTable_level (p : Plan) (parity : Parity) (line : Fin 16) :
    p.derivedTable.level parity line = p.startLevel parity line := by
  cases parity <;> simp [Plan.derivedTable, StartTable.level]

/-- A lawful plan has one entry for a key. -/
theorem Plan.Lawful.key_unique {p : Plan} (h : p.Lawful) {e f : Entry} (he : e ∈ p.entries) (hf : f ∈ p.entries)
    (offset : f.offset = e.offset) (line : f.line = e.line) : f = e := by
  by_contra ne
  have apart := h.sorted.imp (S := fun x y : Entry => ¬(x.offset = y.offset ∧ x.line = y.line)) fun {x y} k same => by
    simp only [Fin.lt_def, Fin.ext_iff] at k same
    omega
  have symm : Std.Symm fun x y : Entry => ¬(x.offset = y.offset ∧ x.line = y.line) :=
    ⟨fun _ _ k same => k ⟨same.1.symm, same.2.symm⟩⟩
  exact apart.forall hf he ne ⟨offset, line⟩

theorem Cadence.due_of_not_other (c : Cadence) (parity : Parity) (h : c.due parity.other = false) :
    c.due parity = true := by
  revert h; cases c <;> cases parity <;> decide

/-- An entry whose occurrence in the frame before follows every other occurrence of its line gives the start level. -/
theorem Plan.startLevel_of_last (p : Plan) (h : p.Lawful) (parity : Parity) {e : Entry} {o : Occurrence}
    (rises : o.rises = (e.action == .rise)) (line : o.line = e.line) (ho : o ∈ p.twoFrames parity 0)
    (last : ∀ u ∈ p.twoFrames parity 0, u.line = o.line → u ≠ o → u.time < o.time) :
    p.startLevel parity e.line = if e.action = .rise then .active else .inactive := by
  rw [Plan.startLevel, ← line, lastOf_eq (p.twoFrames_times h parity) ho last]
  simp [startLevelOf, rises]

/-- Within one frame, an entry whose offset is the greatest of its line comes after every other one. -/
theorem Plan.Lawful.occurs_before {p : Plan} (h : p.Lawful) (parity : Parity) (base : Nat) {e f : Entry}
    (he : e ∈ p.entries) (hf : f ∈ p.entries) (line : f.line = e.line) (greatest : f.offset ≤ e.offset)
    (ne : f.occurs parity base ≠ e.occurs parity base) :
    (f.occurs parity base).time < (e.occurs parity base).time := by
  have offset : f.offset ≠ e.offset := fun k => ne (by rw [h.key_unique he hf k line])
  simp only [Entry.occurs]
  omega

/-- Settles O20: the last occurrence of the line in the two frames before the start is that of the entry. -/
theorem startLevelsFollowTheLastEdge : Obligations.StartLevelsFollowTheLastEdge := by
  intro p parity line h
  refine ⟨fun marks => ?_, fun e he hline action latest => ?_⟩
  · rw [p.derivedTable_level, Plan.startLevel, lastOf_none fun o ho => ?_]
    · rfl
    rcases List.mem_append.1 ho with ho | ho <;> obtain ⟨f, hf, _, edge, rfl⟩ := (p.mem_frameOccurrences _ _ _).1 ho <;>
      exact fun k => edge (marks f hf k)
  · subst hline
    rw [p.derivedTable_level]
    rcases latest with ⟨due, greatest⟩ | ⟨none_before, greatest⟩
    · have occurs := (p.mem_frameOccurrences parity.other (0 + p.frameLength) _).2 ⟨e, he, due, action, rfl⟩
      refine p.startLevel_of_last h parity rfl rfl (List.mem_append_right _ occurs) fun u hu uline ne => ?_
      rcases List.mem_append.1 hu with hu | hu <;>
        obtain ⟨f, hf, fdue, edge, rfl⟩ := (p.mem_frameOccurrences _ _ _).1 hu
      · have := h.inside f hf
        simp only [Entry.occurs]
        omega
      · exact h.occurs_before _ _ he hf uline (greatest f hf uline edge fdue) ne
    · have due := e.cadence.due_of_not_other parity (none_before e he rfl action)
      have occurs := (p.mem_frameOccurrences parity 0 _).2 ⟨e, he, due, action, rfl⟩
      refine p.startLevel_of_last h parity rfl rfl (List.mem_append_left _ occurs) fun u hu uline ne => ?_
      rcases List.mem_append.1 hu with hu | hu <;>
        obtain ⟨f, hf, fdue, edge, rfl⟩ := (p.mem_frameOccurrences _ _ _).1 hu
      · exact h.occurs_before _ _ he hf uline (greatest f hf uline edge) ne
      · rw [none_before f hf uline edge] at fdue; cases fdue

end Sys2Proof.Machine

/-! Power-on, the state after reset, CLEAR_COUNTERS and SOFT_RESET. -/

namespace Sys2Proof.Machine

/-! ### CLEAR_COUNTERS (R202) -/

theorem State.zeroCounters_eq (s : State) :
    s.zeroCounters = { s with
      timebase := { s.timebase with skipCount := 0, missCount := 0 },
      groups := tabulate fun g => { s.groups[g] with deferred := 0, abandoned := 0 },
      sampler := { s.sampler with slots := tabulate fun n => { s.sampler.slots[n] with drops := 0 } },
      ring := { s.ring with lost := 0 },
      trip := { s.trip with overflow := 0 } } := by
  simp only [State.zeroCounters, mapTable_eq_tabulate]

/-! ### SOFT_RESET, block by block (R203) -/

/-- The plan store at soft reset (R16, R33, R57). -/
theorem State.resetPlanStore_plan (s : State) :
    s.resetPlanStore.plan = { (if s.plan.staging = .copying then s.plan.withStaging ⟨1000, [], none⟩ else s.plan) with
      staging := .editing, lateWithdraw := false } := by
  unfold State.resetPlanStore
  simp only
  split
  · rfl
  · unfold State.cancelCommit; split <;> rfl

/-- The validator at soft reset (R61). -/
theorem State.resetPlanStore_validator (s : State) :
    s.resetPlanStore.validator = if s.plan.staging = .validating ∨ s.plan.staging = .pending then
      ⟨false, s.validator.junction, .cancelled .softReset⟩ else s.validator := by
  unfold State.resetPlanStore State.cancelCommit
  simp only
  split
  · rename_i copying; simp [copying]
  · split <;> rfl

/-- The plan store and the validator are all that `resetPlanStore` reaches. -/
theorem State.resetPlanStore_eq (s : State) :
    s.resetPlanStore = { s with plan := s.resetPlanStore.plan, validator := s.resetPlanStore.validator } := by
  unfold State.resetPlanStore State.cancelCommit
  simp only
  split
  · rfl
  · split <;> rfl

/-- The timebase at soft reset, its counters zeroed (R87, R202). -/
theorem Timebase.softReset_eq (b : Timebase) :
    Timebase.softReset { b with skipCount := 0, missCount := 0 } = { b with
      state := if b.state = .halted then .halted else .stopped,
      frameNumber := if b.state = .halted then b.frameNumber else 0#16,
      tick := if b.state = .halted then b.tick else 0,
      dividerCount := 0, timeoutCount := 0, arrivalLatch := false, syncOut := false,
      skipCount := 0, missCount := 0 } := by
  unfold Timebase.softReset
  by_cases h : b.state = .halted <;> simp [h]

/-- A line at soft reset (R135). -/
theorem Line.softReset_eq (indicator : Bool) (l : Line) :
    l.softReset indicator = if indicator then { l with mode := .rest }
      else { l with
        mode := .rest, level := l.restLevel,
        age := if l.level = .active ∧ l.restLevel ≠ .active then 0 else l.age } := by
  cases indicator <;> rfl

/-- Every block at its soft-reset values (R203). -/
theorem State.softReset_eq (s : State) :
    s.softReset = { s with
      plan := s.resetPlanStore.plan,
      validator := s.resetPlanStore.validator,
      timebase := Timebase.softReset { s.timebase with skipCount := 0, missCount := 0 },
      engine := { s.engine with state := .idle },
      lines := tabulate fun i => s.lines[i].softReset s.tripIndicator,
      groups := tabulate fun g => { s.groups[g] with queue := [], deferred := 0, abandoned := 0 },
      sampler := ⟨tabulate fun n => { s.sampler.slots[n] with drops := 0 }, []⟩,
      converter := s.flushSampling.converter,
      ring := ⟨[], none, s.ring.watermark, 0⟩,
      trip := { s.trip with overflow := 0 },
      interrupts := { s.interrupts with flags := 0#13 },
      transit := { s.transit with claims := [], syncExpiry := false, headOwed := 0#6 } } := by
  have groups : (tabulate fun g : Fin 6 => { (mapTable s.groups InterlockGroup.softReset)[g] with
      deferred := 0, abandoned := 0 }) =
        tabulate fun g => { s.groups[g] with queue := [], deferred := 0, abandoned := 0 } := by
    apply vector_ext_fin
    intro g
    simp [InterlockGroup.softReset]
  unfold State.softReset
  rw [State.zeroCounters_eq, s.resetPlanStore_eq, ← groups, ← mapTable_eq_tabulate]
  rfl

/-- Settles O53: both actions are taken, with the blocks as their equations give them. -/
theorem countersAndSoftReset : Obligations.CountersAndSoftReset := by
  refine ⟨fun s h => ?_, fun s h => ?_⟩
  · refine (State.action_next h fun t => (t.zeroCounters, .ok)).trans ?_
    rw [s.zeroCounters_eq]
  · refine (State.action_next h fun t => (t.softReset, .ok)).trans ?_
    rw [s.softReset_eq, s.resetPlanStore_plan, s.resetPlanStore_validator, Timebase.softReset_eq]
    cases converter : s.converter.state <;> simp only [Line.softReset_eq, State.flushSampling, converter]

/-! ### Power-on values -/

/-- Every block is at its power-on value, whatever the pins, the port's phase, the world outside and the queue. -/
theorem State.powerOn_of_reset {t : State} (nextTick : Nat) (phase : PortPhase)
    (h : t = { State.reset with
      timebase := { State.reset.timebase with nextTick := nextTick },
      port := { State.reset.port with phase := phase },
      rstLow := t.rstLow, environment := t.environment, pending := t.pending }) : t.PowerOn := by
  rw [h]
  constructor
  case plan => exact ⟨rfl, rfl, rfl, rfl⟩
  case banks =>
    have trivial_rests : ∀ i : Fin 16,
        StartTable.trivial.even[i] = StartLevel.rest ∧ StartTable.trivial.odd[i] = StartLevel.rest := by
      simp [StartTable.trivial]
    intro p hp
    have : p = .powerOn := by simpa [State.reset] using hp
    subst this
    exact ⟨rfl, rfl, .trivial, rfl, trivial_rests⟩
  case validator => exact ⟨rfl, rfl⟩
  case timebase => exact ⟨rfl, rfl, rfl, rfl, rfl, rfl, rfl, rfl, rfl, rfl, rfl, rfl, rfl⟩
  case engine => rfl
  case lines => intro i; simp [State.reset, Line.powerOn, Config.ageLimit]
  case groups => intro g; simp [State.reset, InterlockGroup.powerOn]
  case indicator => rfl
  case slots => intro n; simp [State.reset, Slot.powerOn]
  case sampling => exact ⟨rfl, rfl, rfl, rfl, rfl⟩
  case ring => rfl
  case trip => exact ⟨rfl, rfl, rfl, rfl⟩
  case faults => intro i; simp [State.reset, FaultInput.powerOn]
  case interrupts => rfl
  case port => exact ⟨rfl, rfl, rfl, rfl, rfl, rfl⟩

/-- A transaction found at power-on is ignored (R193, log entry 7). -/
theorem State.powerOnValues_phase (s : State) :
    s.powerOnValues.port.phase = if s.port.phase = .idle then .idle else .ignoring := by
  unfold State.powerOnValues
  cases s.port.phase <;> rfl

/-- With no flag set INT# is high (R205). -/
theorem State.powerOnValues_intLow (s : State) : s.powerOnValues.intLow = false := by
  simp [State.intLow, State.powerOnValues, State.reset]

/-- Settles O2: all three states differ from the state of reset in the pins, the port's phase, the first tick and
what is outside the part alone. -/
theorem powerOnAndResetValues : Obligations.PowerOnAndResetValues := by
  refine ⟨fun s => ⟨s.powerOnValues, rfl, State.powerOn_of_reset _ _ rfl, rfl, rfl, rfl, rfl,
      s.powerOnValues_intLow, rfl, s.powerOnValues_phase⟩,
    fun s => ⟨{ s.powerOnValues with rstLow := true }, rfl, State.powerOn_of_reset _ _ rfl, rfl, rfl, rfl, rfl,
      s.powerOnValues_intLow, fun i => rfl, rfl, s.powerOnValues_phase⟩,
    State.powerOn_of_reset 1 .idle rfl, rfl, rfl, rfl⟩

/-! ### The laws at reset -/

/-- Every line of reset is a line at power-on, every group a group at power-on (R134). -/
theorem State.reset_line (i : Fin 16) : State.reset.lines[i] = .powerOn := by simp [State.reset]

theorem State.reset_group (g : Fin 6) : State.reset.groups[g] = .powerOn := by simp [State.reset]

theorem State.reset_groupsSafe : State.reset.GroupsSafe where
  apart i _ _ grouped := absurd (by rw [State.reset_line]; rfl) grouped
  levels i grouped := absurd (by rw [State.reset_line]; rfl) grouped
  claims _ h := absurd h List.not_mem_nil

theorem State.reset_queuesLawful : State.reset.QueuesLawful where
  sizes g := .inl (List.eq_nil_iff_forall_not_mem.2 fun i hi => by
    have := (State.reset.mem_members g i).1 hi
    rw [State.reset_line] at this
    cases this)
  members g w hw := by rw [State.reset_group] at hw; cases hw
  down g w hw := by rw [State.reset_group] at hw; cases hw
  once g := by rw [State.reset_group]; exact List.nodup_nil
  waits g w hw := by rw [State.reset_group] at hw; cases hw
  policy g _ := by rw [State.reset_group]; rfl
  ranges g := by rw [State.reset_group]; decide

theorem State.reset_tripLaw : State.reset.TripLaw where
  list := iff_of_true rfl rfl
  count := Nat.zero_le _
  halted h := nomatch h
  withdrawn h := nomatch h
  indicator h := nomatch h
  still h := nomatch h
  levels h := nomatch h
  modes h := nomatch h
  queues h := nomatch h

theorem State.reset_countersLaw : State.reset.CountersLaw where
  ages i := by rw [State.reset_line]; decide
  skip := by decide
  miss := by decide
  deferred g := by rw [State.reset_group]; decide
  abandoned g := by rw [State.reset_group]; decide
  drops n := by simp [State.reset, Slot.powerOn]
  lost := by decide
  overflow := by decide

/-- Settles O54: the laws of the plan store and the frame hold at power-on values, the others block by block. -/
theorem resetMeetsEveryLaw : Obligations.ResetMeetsEveryLaw := by
  have planFrame : State.reset.PlanFrameLaw := State.planFrameLaw_of_powerOn rfl rfl rfl rfl rfl
  obtain ⟨banks, marked, selector, validator, tick, engine⟩ := State.reset.planFrameLaw_iff.1 planFrame
  exact ⟨banks, marked, selector, validator, tick, engine, State.reset_groupsSafe, State.reset_queuesLawful,
    State.reset_tripLaw, ⟨by decide, fun _ => rfl, by decide, trivial⟩,
    ⟨by decide, by decide, by decide, fun _ h => absurd h List.not_mem_nil⟩, State.reset_countersLaw⟩

end Sys2Proof.Machine

/-! Editing the staging plan: what the owner of each edit answers in each case, with INSERT_EDGE, REMOVE_EDGE,
CLEAR_STAGE, SET_FRAME_LENGTH and the copy settled from it. -/

namespace Sys2Proof.Machine

/-- An action whose word completes, with what its owner answers. -/
theorem State.action_of_owner {s t : State} {a : Address} {owner : State → State × ResultCode} {code : ResultCode}
    (at_a : s.atWord a) (answer : owner s = (t, code)) : s.action a owner = .next (t.acted a code) := by
  rw [State.action_next at_a, answer]

/-! ### Keys (R3, R26) -/

/-- The examination for an entry with a key, as a proposition. -/
theorem any_hasKey_iff (l : List Entry) (offset : Nat) (line : Fin 16) :
    (l.any fun f => f.hasKey offset line) = true ↔ ∃ f ∈ l, f.offset = offset ∧ f.line = line := by
  simp [Entry.hasKey]

/-- The line field of P1 as a number (R199). -/
theorem eq_lineOf_iff (line : Fin 16) (p1 : Word) : line = lineOf p1 ↔ line.val = (p1.extractLsb' 0 4).toNat :=
  Fin.ext_iff

/-- A list in strict key order holds no entry twice (R6). -/
theorem Plan.Lawful.nodup {p : Plan} (h : p.Lawful) : p.entries.Nodup :=
  h.sorted.imp fun {e f} before same => by
    subst same
    rcases before with offset | ⟨-, line⟩
    · exact Nat.lt_irrefl _ offset
    · exact Fin.lt_irrefl _ line

/-- In a lawful plan to drop a key is to take out its one entry (R26). -/
theorem Plan.Lawful.filter_key_eq_erase {p : Plan} (h : p.Lawful) {e : Entry} (he : e ∈ p.entries) :
    (p.entries.filter fun f => !f.hasKey e.offset e.line) = p.entries.erase e := by
  rw [h.nodup.erase_eq_filter]
  refine List.filter_congr fun f hf => ?_
  have key : f.hasKey e.offset e.line = (f == e) := by
    rw [Bool.eq_iff_iff, beq_iff_eq]
    simp only [Entry.hasKey, Bool.and_eq_true, beq_iff_eq]
    exact ⟨fun ⟨offset, line⟩ => h.key_unique he hf offset line, fun same => by simp [same]⟩
  rw [key]; rfl

/-! ### INSERT_EDGE (R21, R24, R25) -/

theorem State.insertEdge_busy (s : State) (h : s.plan.staging ≠ .editing) : s.insertEdge = (s, .busy) := if_pos h

theorem State.insertEdge_config (s : State) (editing : s.plan.staging = .editing)
    (h : entryOf s.port.p0 s.port.p1 = none) : s.insertEdge = (s, .config) := by
  unfold State.insertEdge
  simp only [h, editing, ne_eq, not_true_eq_false, if_false]

/-- The checks on a proposed entry, in their order, and the place of a taken one. -/
theorem State.insertEdge_examines (s : State) {e : Entry} (editing : s.plan.staging = .editing)
    (h : entryOf s.port.p0 s.port.p1 = some e) :
    s.insertEdge =
      if s.plan.stagingPlan.frameLength ≤ e.offset then (s, .range)
      else if ∃ f ∈ s.plan.stagingPlan.entries, f.offset = e.offset ∧ f.line = e.line then (s, .duplicate)
      else if 64 ≤ s.plan.stagingPlan.entries.length then (s, .full)
      else (s.setStaging { s.plan.stagingPlan with
        entries := insertEntry e s.plan.stagingPlan.entries, table := none }, .ok) := by
  unfold State.insertEdge
  simp only [h, editing, ne_eq, not_true_eq_false, if_false]
  exact if_congr Iff.rfl rfl (if_congr (any_hasKey_iff _ _ _) rfl rfl)

/-- Settles O13: the owner's checks case by case; in key order the insertion is the split at the new key. -/
theorem insertEdgeChecksAndPlaces : Obligations.InsertEdgeChecksAndPlaces := by
  intro s at_word lawful
  have acts {t : State} {code : ResultCode} (h : s.insertEdge = (t, code)) :
      exec .insertEdge s = .next (t.acted 0x20#7 code) := State.action_of_owner at_word h
  refine ⟨fun busy => acts (s.insertEdge_busy busy), fun editing absent => acts (s.insertEdge_config editing absent),
    fun e editing proposed => ?_⟩
  have examined := s.insertEdge_examines editing proposed
  refine ⟨fun beyond => acts ?range, fun inside => ⟨fun taken => acts ?duplicate, fun new =>
    ⟨fun full => acts ?full, fun room => acts ?ok⟩⟩⟩
  case range => rw [examined, if_pos beyond]
  case duplicate => rw [examined, if_neg (Nat.not_le.2 inside), if_pos taken]
  case full => rw [examined, if_neg (Nat.not_le.2 inside), if_neg new, if_pos full]
  case ok =>
    rw [examined, if_neg (Nat.not_le.2 inside), if_neg new, if_neg (Nat.not_le.2 room),
      insertEntry_eq e _ lawful.sorted new]

/-! ### REMOVE_EDGE (R21, R26) -/

theorem State.removeEdge_busy (s : State) (h : s.plan.staging ≠ .editing) : s.removeEdge = (s, .busy) := if_pos h

/-- In EDITING the entries with the key of P0 and P1 leave, if there are any. -/
theorem State.removeEdge_examines (s : State) (editing : s.plan.staging = .editing) :
    s.removeEdge =
      if ∃ f ∈ s.plan.stagingPlan.entries, f.offset = s.port.p0.toNat ∧ f.line = lineOf s.port.p1 then
        (s.setStaging { s.plan.stagingPlan with
          entries := s.plan.stagingPlan.entries.filter fun f => !f.hasKey s.port.p0.toNat (lineOf s.port.p1),
          table := none }, .ok)
      else (s, .notFound) :=
  (if_neg (not_not.2 editing)).trans (if_congr (any_hasKey_iff _ _ _) rfl rfl)

/-- Settles O14: a lawful bank has one entry for a key, so what the filter drops is that entry. -/
theorem removeEdgeRemovesTheKey : Obligations.RemoveEdgeRemovesTheKey := by
  intro s at_word lawful
  have acts {t : State} {code : ResultCode} (h : s.removeEdge = (t, code)) :
      exec .removeEdge s = .next (t.acted 0x21#7 code) := State.action_of_owner at_word h
  refine ⟨fun busy => acts (s.removeEdge_busy busy), fun editing => ⟨fun e he offset line => acts ?found,
    fun absent => acts ?notFound⟩⟩
  case found =>
    have line : e.line = lineOf s.port.p1 := (eq_lineOf_iff _ _).2 line
    rw [s.removeEdge_examines editing, if_pos ⟨e, he, offset, line⟩, ← offset, ← line,
      lawful.filter_key_eq_erase he]
  case notFound =>
    rw [s.removeEdge_examines editing, if_neg]
    rintro ⟨f, hf, offset, line⟩
    exact absent f hf ⟨offset, (eq_lineOf_iff _ _).1 line⟩

/-! ### CLEAR_STAGE and SET_FRAME_LENGTH (R21, R27, R28) -/

theorem State.clearStage_busy (s : State) (h : s.plan.staging ≠ .editing) : s.clearStage = (s, .busy) := if_pos h

theorem State.clearStage_editing (s : State) (editing : s.plan.staging = .editing) :
    s.clearStage =
      if s.plan.stagingPlan.entries = [] then (s, .ok)
      else (s.setStaging { s.plan.stagingPlan with entries := [], table := none }, .ok) :=
  (if_neg (not_not.2 editing)).trans (if_congr List.isEmpty_iff rfl rfl)

theorem State.setFrameLength_busy (s : State) (h : s.plan.staging ≠ .editing) : s.setFrameLength = (s, .busy) :=
  if_pos h

/-- The two RANGE checks on a proposed frame length as one, and the length that is there already. -/
theorem State.setFrameLength_examines (s : State) (editing : s.plan.staging = .editing) :
    s.setFrameLength =
      if s.port.p0.toNat < 16 ∨ ∃ e ∈ s.plan.stagingPlan.entries, s.port.p0.toNat ≤ e.offset then (s, .range)
      else if s.port.p0.toNat = s.plan.stagingPlan.frameLength then (s, .ok)
      else (s.setStaging { s.plan.stagingPlan with frameLength := s.port.p0.toNat, table := none }, .ok) := by
  unfold State.setFrameLength
  simp only [editing, ne_eq, not_true_eq_false, if_false, Config.minFrameLength, List.any_eq_true, decide_eq_true_eq,
    ite_or]

/-- Settles O15: each owner answers BUSY outside EDITING, and in EDITING case by case. -/
theorem clearStageAndSetFrameLength : Obligations.ClearStageAndSetFrameLength := by
  refine ⟨fun s at_word => ?_, fun s at_word => ?_⟩
  · have acts {t : State} {code : ResultCode} (h : s.clearStage = (t, code)) :
        exec .clearStage s = .next (t.acted 0x22#7 code) := State.action_of_owner at_word h
    exact ⟨fun busy => acts (s.clearStage_busy busy),
      fun editing empty => acts ((s.clearStage_editing editing).trans (if_pos empty)),
      fun editing filled => acts ((s.clearStage_editing editing).trans (if_neg filled))⟩
  · have acts {t : State} {code : ResultCode} (h : s.setFrameLength = (t, code)) :
        exec .setFrameLength s = .next (t.acted 0x24#7 code) := State.action_of_owner at_word h
    refine ⟨fun busy => acts (s.setFrameLength_busy busy), fun editing => ?_⟩
    have examined := s.setFrameLength_examines editing
    refine ⟨fun out => acts (examined.trans (if_pos out)), fun least above => ?_⟩
    have fits : ¬(s.port.p0.toNat < 16 ∨ ∃ e ∈ s.plan.stagingPlan.entries, s.port.p0.toNat ≤ e.offset) := by
      rintro (short | ⟨e, he, beyond⟩)
      · exact Nat.not_lt.2 least short
      · exact Nat.not_le.2 (above e he) beyond
    rw [if_neg fits] at examined
    exact ⟨fun same => acts (examined.trans (if_pos same)), fun changed => acts (examined.trans (if_neg changed))⟩

/-! ### The copy (R21, R29, R30, R34) -/

theorem State.copyActive_busy (s : State) (h : s.plan.staging ≠ .editing) : s.copyActive = (s, .busy) := if_pos h

theorem State.copyActive_editing (s : State) (h : s.plan.staging = .editing) :
    s.copyActive = ({ s with
      plan := { s.plan with staging := .copying, lateWithdraw := false, since := s.environment.clk } }, .ok) :=
  if_neg (not_not.2 h)

/-- With the active plan staged both banks hold it, whichever bank is the active one (R9, R30). -/
theorem PlanStore.withStaging_active_eq (p : PlanStore) :
    p.withStaging p.active = { p with bankA := p.active, bankB := p.active } := by
  obtain ⟨bankA, bankB, selector, generation, staging, lateWithdraw, since⟩ := p
  cases selector <;> rfl

/-- A copy in flight completes with COPIED (R30, R34). -/
theorem State.completeCopy_copying (s : State) (h : s.plan.staging = .copying) :
    s.completeCopy = ((s.setStaging s.plan.active).setStagingState .editing).withFlags 0x0010#13 := if_pos h

/-- Settles O16: the copy starts in EDITING alone, and its completion leaves the active plan in both banks. -/
theorem copyTakesTheActivePlan : Obligations.CopyTakesTheActivePlan := by
  refine ⟨fun s at_word => ?start, fun s running copying => ?completion⟩
  case start =>
    exact ⟨fun busy => State.action_of_owner at_word (s.copyActive_busy busy),
      fun editing => State.action_of_owner at_word (s.copyActive_editing editing)⟩
  case completion =>
    refine (State.event_next running s.completeCopy).trans ?_
    rw [s.completeCopy_copying copying, State.setStaging, s.plan.withStaging_active_eq]
    rfl

end Sys2Proof.Machine

/-! The validator's checks as walks: a check examines each occurrence behind those before it and stops at the first that
fails; the cycle of a lawful plan stands in strict cycle order. -/

namespace Sys2Proof.Machine

/-! ### Walks -/

/-- The first occurrence of a walk that `bad` finds behind the history of the occurrences before it: what the checks of
R42, R45 and R49 have in common. -/
def firstWhere (bad : List Occurrence → Occurrence → Bool) (history : List Occurrence) :
    List Occurrence → Option Occurrence
  | [] => none
  | o :: rest => if bad history o then some o else firstWhere bad (o :: history) rest

@[simp] theorem firstWhere_cons_none_iff (bad : List Occurrence → Occurrence → Bool) (history : List Occurrence)
    (o : Occurrence) (rest : List Occurrence) : firstWhere bad history (o :: rest) = none ↔
      bad history o = false ∧ firstWhere bad (o :: history) rest = none := by
  cases h : bad history o <;> simp [firstWhere, h]

/-- A walk reports nothing exactly when no occurrence is bad behind those before it. -/
theorem firstWhere_none_iff (bad : List Occurrence → Occurrence → Bool) (history walk : List Occurrence) :
    firstWhere bad history walk = none ↔
      ∀ before o after, walk = before ++ o :: after → bad (before.reverse ++ history) o = false := by
  induction walk generalizing history with
  | nil => simp [firstWhere]
  | cons a rest ih =>
    rw [firstWhere_cons_none_iff, ih]
    constructor
    · rintro ⟨good, later⟩ before o after split
      cases before with
      | nil => cases split; exact good
      | cons b before => cases split; simpa using later before o after rfl
    · intro h
      exact ⟨h [] a rest rfl, fun before o after split => by simpa using h (a :: before) o after (by rw [split]; rfl)⟩

/-- What a walk reports is bad, and the walk reports nothing before it. -/
theorem firstWhere_some {bad : List Occurrence → Occurrence → Bool} {history walk : List Occurrence} {o : Occurrence}
    (h : firstWhere bad history walk = some o) : ∃ before after, walk = before ++ o :: after ∧
      bad (before.reverse ++ history) o = true ∧ firstWhere bad history before = none := by
  induction walk generalizing history with
  | nil => cases h
  | cons a rest ih =>
    unfold firstWhere at h
    split at h
    · rename_i found
      cases h
      exact ⟨[], rest, rfl, found, rfl⟩
    · rename_i good
      obtain ⟨before, after, split, found, none_before⟩ := ih h
      exact ⟨a :: before, after, by rw [split]; rfl, by simpa using found, by simp [good, none_before]⟩

/-! ### ALTERNATION (R42) -/

/-- An occurrence does what the last occurrence of its line in the history did. -/
def repeats (history : List Occurrence) (o : Occurrence) : Bool :=
  (lastOf history o.line).any fun q => q.rises == o.rises

theorem repeats_iff (history : List Occurrence) (o : Occurrence) :
    repeats history o = true ↔ ∃ q, lastOf history o.line = some q ∧ q.rises = o.rises := by
  simp [repeats, Option.any_eq_true]

theorem repeats_false_iff (history : List Occurrence) (o : Occurrence) :
    repeats history o = false ↔ ∀ q, lastOf history o.line = some q → q.rises ≠ o.rises := by
  rw [← Bool.not_eq_true, repeats_iff]; push Not; rfl

theorem firstRepeat_eq (history walk : List Occurrence) : firstRepeat history walk = firstWhere repeats history walk := by
  induction walk generalizing history with
  | nil => rfl
  | cons o rest ih =>
    unfold firstRepeat firstWhere
    cases k : lastOf history o.line <;> simp [repeats, k, ih]

/-! ### Cycle order (R41) -/

theorem Occurrence.before_iff (o u : Occurrence) : o.before u = true ↔
    o.time < u.time ∨ (o.time = u.time ∧
      ((o.rises = false ∧ u.rises = true) ∨ (o.rises = u.rises ∧ o.line < u.line))) := by
  simp [Occurrence.before]

theorem Occurrence.before_trans {o u v : Occurrence} (h : o.before u = true) (k : u.before v = true) :
    o.before v = true := by
  rw [Occurrence.before_iff] at *
  grind

/-- An occurrence joins occurrences in strict cycle order where it stands before or after each of them. -/
theorem insertOccurrence_ordered (o : Occurrence) {l : List Occurrence} (h : l.Pairwise fun x y => x.before y = true)
    (comparable : ∀ u ∈ l, o.before u = true ∨ u.before o = true) :
    (insertOccurrence o l).Pairwise fun x y => x.before y = true := by
  induction l with
  | nil => exact List.pairwise_singleton _ _
  | cons a rest ih =>
    obtain ⟨first, ordered⟩ := List.pairwise_cons.1 h
    unfold insertOccurrence
    split
    · rename_i behind
      refine List.pairwise_cons.2 ⟨fun u hu => ?_, ih ordered fun u hu => comparable u (List.mem_cons_of_mem a hu)⟩
      rcases (mem_insertOccurrence o u rest).1 hu with rfl | hu
      · exact behind
      · exact first u hu
    · rename_i not_behind
      have front : o.before a = true := (comparable a List.mem_cons_self).resolve_right not_behind
      refine List.pairwise_cons.2 ⟨fun u hu => ?_, h⟩
      rcases List.mem_cons.1 hu with rfl | hu
      · exact front
      · exact Occurrence.before_trans front (first u hu)

theorem inCycleOrder_ordered {l : List Occurrence} (h : l.Pairwise fun x y => x.before y = true ∨ y.before x = true) :
    (inCycleOrder l).Pairwise fun x y => x.before y = true := by
  induction l with
  | nil => exact List.Pairwise.nil
  | cons a rest ih =>
    obtain ⟨first, others⟩ := List.pairwise_cons.1 h
    exact insertOccurrence_ordered a (ih others) fun u hu => first u ((mem_inCycleOrder u rest).1 hu)

/-- A RISE or FALL entry that is due has the occurrence `occurs`, and no other (R41). -/
theorem Entry.occurrence_eq_some {e : Entry} {parity : Parity} {base : Nat} {o : Occurrence}
    (h : e.occurrence parity base = some o) : o = e.occurs parity base := by
  unfold Entry.occurrence at h
  split at h <;> cases h
  rfl

/-- The entries of a lawful plan have different keys, so no two occurrences of a frame stand at one place. -/
theorem Plan.Lawful.frame_ordered {p : Plan} (h : p.Lawful) (parity : Parity) (base : Nat) :
    (p.frameOccurrences parity base).Pairwise fun x y => x.before y = true := by
  refine inCycleOrder_ordered (List.Pairwise.filterMap _ (fun e f key o ho u hu => ?_) h.sorted)
  rw [Entry.occurrence_eq_some ho, Entry.occurrence_eq_some hu]
  simp only [Occurrence.before_iff, Entry.occurs]
  rcases key with offset | ⟨offset, line⟩
  · exact .inl (.inl (by omega))
  · cases e.action == .rise <;> cases f.action == .rise <;> simp [offset, line]

/-- The even frame lies before the odd frame: every offset is below the frame length (R6). -/
theorem Plan.Lawful.cycle_ordered {p : Plan} (h : p.Lawful) :
    p.cycle.Pairwise fun x y => x.before y = true := by
  refine List.pairwise_append.2 ⟨h.frame_ordered _ _, h.frame_ordered _ _, fun o ho u hu => ?_⟩
  obtain ⟨e, he, _, _, rfl⟩ := (p.mem_frameOccurrences _ _ _).1 ho
  obtain ⟨f, _, _, _, rfl⟩ := (p.mem_frameOccurrences _ _ _).1 hu
  have inside := h.inside e he
  refine (Occurrence.before_iff _ _).2 (.inl ?_)
  simp only [Entry.occurs]
  omega

/-- The cycle has the occurrences of its even frame and those of its odd frame one frame length later (R41). -/
theorem Plan.mem_cycle (p : Plan) (o : Occurrence) :
    o ∈ p.cycle ↔ ∃ e ∈ p.entries, ∃ parity, e.cadence.due parity = true ∧ e.action ≠ .mark ∧
      o = e.occurs parity (if parity = .even then 0 else p.frameLength) := by
  simp only [Plan.cycle, Plan.twoFrames, List.mem_append, p.mem_frameOccurrences, Parity.other, Nat.zero_add]
  constructor
  · rintro (⟨e, he, due, action, rfl⟩ | ⟨e, he, due, action, rfl⟩)
    · exact ⟨e, he, .even, due, action, rfl⟩
    · exact ⟨e, he, .odd, due, action, rfl⟩
  · rintro ⟨e, he, parity, due, action, rfl⟩
    cases parity with
    | even => exact .inl ⟨e, he, due, action, rfl⟩
    | odd => exact .inr ⟨e, he, due, action, rfl⟩

/-- Settles O21: ALTERNATION is the walk of the cycle behind itself that stops at the first repeat. -/
theorem alternationFindsTheFirstRepeat : Obligations.AlternationFindsTheFirstRepeat := by
  intro p
  have walk : p.firstRepeat = firstWhere repeats p.cycle.reverse p.cycle := firstRepeat_eq _ _
  refine ⟨p.mem_cycle, fun lawful => lawful.cycle_ordered.imp fun {o u} => (Occurrence.before_iff o u).1, ?_,
    fun o found => ?_⟩
  · simp only [walk, firstWhere_none_iff, repeats_false_iff]
  · obtain ⟨before, after, split, bad, none_before⟩ := firstWhere_some (walk ▸ found)
    simp only [firstWhere_none_iff, repeats_false_iff] at none_before
    exact ⟨before, after, split, (repeats_iff _ _).1 bad, none_before⟩

end Sys2Proof.Machine

/-! What the interlock checks promise: a walk that meets no conflict keeps the members of a group apart, and a cycle
that is walked behind itself begins with them apart. -/

namespace Sys2Proof.Machine

/-! ### The condition of a rise (R45) -/

/-- The examination of a rise says whether it stands apart from the other members of its group. -/
theorem GroupTable.riseAllowed_iff (t : GroupTable) (history : List Occurrence) (o : Occurrence) :
    t.riseAllowed history o = true ↔ t.RiseApart history o := by
  unfold GroupTable.riseAllowed GroupTable.RiseApart
  cases group : t.groupOf o.line with
  | none => simp
  | some g =>
    simp only [List.all_eq_true, Bool.or_eq_true, Bool.and_eq_true, Bool.not_eq_true', beq_iff_eq, bne_iff_ne]
    constructor
    · rintro allowed _ y ⟨⟩ other member
      rcases allowed y (mem_allLines y) with (own | foreign) | ⟨inactive, far⟩
      · exact absurd own other
      · exact absurd member foreign
      · exact ⟨inactive, fun f fall => by simpa [fall] using far⟩
    · intro apart y _
      by_cases other : y = o.line
      · exact .inl (.inl other)
      by_cases member : t.groupOf y = some g
      · obtain ⟨inactive, far⟩ := apart g y rfl other member
        refine .inr ⟨inactive, ?_⟩
        cases fall : lastFallOf history y with
        | none => rfl
        | some f => simpa using far f fall
      · exact .inl (.inr member)

/-- A rise that does not stand apart. -/
def GroupTable.conflicts (t : GroupTable) (history : List Occurrence) (o : Occurrence) : Bool :=
  o.rises && !t.riseAllowed history o

theorem GroupTable.conflicts_iff (t : GroupTable) (history : List Occurrence) (o : Occurrence) :
    t.conflicts history o = true ↔ o.rises = true ∧ ¬t.RiseApart history o := by
  rw [← t.riseAllowed_iff]; simp [GroupTable.conflicts]

theorem GroupTable.conflicts_false_iff (t : GroupTable) (history : List Occurrence) (o : Occurrence) :
    t.conflicts history o = false ↔ (o.rises = true → t.RiseApart history o) := by
  rw [← Bool.not_eq_true, t.conflicts_iff, not_and_not_right]

theorem GroupTable.firstConflict_eq (t : GroupTable) (history walk : List Occurrence) :
    t.firstConflict history walk = firstWhere t.conflicts history walk := by
  induction walk generalizing history with
  | nil => rfl
  | cons o rest ih => rw [GroupTable.firstConflict, ih]; rfl

/-- A walk meets no conflict exactly when each of its rises stands apart (R45, R49). -/
theorem GroupTable.firstConflict_none_iff (t : GroupTable) (history walk : List Occurrence) :
    t.firstConflict history walk = none ↔ ∀ before o after, walk = before ++ o :: after → o.rises = true →
      t.RiseApart (before.reverse ++ history) o := by
  simp only [t.firstConflict_eq, firstWhere_none_iff, t.conflicts_false_iff]

/-- A walk reports the first of its rises that does not stand apart (R45, R49). -/
theorem GroupTable.firstConflict_some {t : GroupTable} {history walk : List Occurrence} {o : Occurrence}
    (h : t.firstConflict history walk = some o) : ∃ before after, walk = before ++ o :: after ∧ o.rises = true ∧
      ¬t.RiseApart (before.reverse ++ history) o ∧ t.firstConflict history before = none := by
  rw [t.firstConflict_eq] at h
  obtain ⟨before, after, split, bad, none_before⟩ := firstWhere_some h
  obtain ⟨rises, conflict⟩ := (t.conflicts_iff _ _).1 bad
  exact ⟨before, after, split, rises, conflict, (t.firstConflict_eq _ _).trans none_before⟩

/-! ### The level after a history (R44) -/

/-- An occurrence gives its own line its level and leaves the others. -/
theorem activeAfter_cons (o : Occurrence) (history : List Occurrence) (line : Fin 16) :
    activeAfter (o :: history) line = if o.line = line then o.rises else activeAfter history line := by
  unfold activeAfter lastOf
  by_cases own : o.line = line <;> simp [own]

/-- The most recent occurrence of a line is in the later part of a history, or else in the earlier part. -/
theorem activeAfter_append (later earlier : List Occurrence) (line : Fin 16) :
    activeAfter (later ++ earlier) line =
      if ∃ o ∈ later, o.line = line then activeAfter later line else activeAfter earlier line := by
  induction later with
  | nil => simp
  | cons a rest ih =>
    rw [List.cons_append, activeAfter_cons, activeAfter_cons, ih]
    by_cases own : a.line = line <;> simp [own]

/-- A history that has no occurrence of a line leaves it INACTIVE. -/
theorem activeAfter_of_absent {history : List Occurrence} {line : Fin 16} (h : ¬∃ o ∈ history, o.line = line) :
    activeAfter history line = false := by
  simpa [h, activeAfter, lastOf] using activeAfter_append history [] line

/-! ### Members kept apart -/

/-- Two lines are not both ACTIVE after a history. -/
def ApartAfter (history : List Occurrence) (x y : Fin 16) : Prop :=
  ¬(activeAfter history x = true ∧ activeAfter history y = true)

section

variable {t : GroupTable} {g : Fin 6} {x y : Fin 16}

/-- After an occurrence of one of two members they are apart: it falls, or the other was INACTIVE at its rise. -/
theorem apartAfter_of_own (ne : x ≠ y) (hx : t.groupOf x = some g) (hy : t.groupOf y = some g)
    {history : List Occurrence} {o : Occurrence} (allowed : o.rises = true → t.RiseApart history o)
    (own : o.line = x ∨ o.line = y) : ApartAfter (o :: history) x y := by
  rintro ⟨ax, ay⟩
  rw [activeAfter_cons] at ax ay
  rcases own with rfl | rfl
  · rw [if_pos rfl] at ax
    rw [if_neg ne, (allowed ax g y hx ne.symm hy).1] at ay
    cases ay
  · rw [if_pos rfl] at ay
    rw [if_neg ne.symm, (allowed ay g x hy ne hx).1] at ax
    cases ax

/-- A walk that meets no conflict has two members apart once it has moved one of them, or when they were apart before. -/
theorem apartAfter_walk (ne : x ≠ y) (hx : t.groupOf x = some g) (hy : t.groupOf y = some g)
    {walk : List Occurrence} {history : List Occurrence} (passes : t.firstConflict history walk = none)
    (h : ApartAfter history x y ∨ ∃ o ∈ walk, o.line = x ∨ o.line = y) :
    ApartAfter (walk.reverse ++ history) x y := by
  induction walk generalizing history with
  | nil => exact h.resolve_right (by simp)
  | cons a rest ih =>
    rw [t.firstConflict_eq, firstWhere_cons_none_iff, t.conflicts_false_iff, ← t.firstConflict_eq] at passes
    obtain ⟨allowed, passes⟩ := passes
    rw [List.reverse_cons, List.append_assoc, List.singleton_append]
    refine ih passes ?_
    by_cases own : a.line = x ∨ a.line = y
    · exact .inl (apartAfter_of_own ne hx hy allowed own)
    · obtain ⟨notx, noty⟩ := not_or.1 own
      rcases h with apart | ⟨o, ho, moves⟩
      · left
        rwa [ApartAfter, activeAfter_cons, activeAfter_cons, if_neg notx, if_neg noty]
      · rcases List.mem_cons.1 ho with rfl | ho
        · exact absurd moves own
        · exact .inr ⟨o, ho, moves⟩

end

/-- Part of a walk from its beginning meets no conflict where the whole walk meets none. -/
theorem GroupTable.firstConflict_part {t : GroupTable} {history walked walk : List Occurrence}
    (part : walked <+: walk) (passes : t.firstConflict history walk = none) : t.firstConflict history walked = none := by
  obtain ⟨rest, rfl⟩ := part
  rw [t.firstConflict_none_iff] at passes ⊢
  exact fun before o after split => passes before o (after ++ rest) (by rw [split]; simp)

/-! ### The cycle at another time -/

/-- An occurrence at another time. -/
def Occurrence.delay (o : Occurrence) (d : Nat) : Occurrence := { o with time := o.time + d }

/-- Occurrences at another time. -/
def delayed (d : Nat) (l : List Occurrence) : List Occurrence := l.map fun o => o.delay d

theorem insertOccurrence_delay (d : Nat) (o : Occurrence) (l : List Occurrence) :
    insertOccurrence (o.delay d) (delayed d l) = delayed d (insertOccurrence o l) := by
  induction l with
  | nil => rfl
  | cons a rest ih =>
    have same : (a.delay d).before (o.delay d) = a.before o := by
      rw [Bool.eq_iff_iff, Occurrence.before_iff, Occurrence.before_iff]
      simp [Occurrence.delay]
    simp only [delayed, List.map_cons, insertOccurrence, same] at ih ⊢
    split
    · rw [ih]; rfl
    · rfl

theorem inCycleOrder_delay (d : Nat) (l : List Occurrence) :
    inCycleOrder (delayed d l) = delayed d (inCycleOrder l) := by
  induction l with
  | nil => rfl
  | cons a rest ih =>
    rw [inCycleOrder, ← insertOccurrence_delay, ← ih]; rfl

/-- A frame that begins later has the same occurrences as much later. -/
theorem Plan.frameOccurrences_delay (p : Plan) (parity : Parity) (base d : Nat) :
    p.frameOccurrences parity (base + d) = delayed d (p.frameOccurrences parity base) := by
  have one (e : Entry) :
      e.occurrence parity (base + d) = (e.occurrence parity base).map fun o => o.delay d := by
    unfold Entry.occurrence
    split
    · simp [Occurrence.delay, Nat.add_right_comm]
    · rfl
  rw [Plan.frameOccurrences, Plan.frameOccurrences, ← inCycleOrder_delay, delayed, List.map_filterMap]
  simp only [one]

theorem Plan.twoFrames_delay (p : Plan) (first : Parity) (base d : Nat) :
    p.twoFrames first (base + d) = delayed d (p.twoFrames first base) := by
  rw [Plan.twoFrames, Plan.twoFrames, Nat.add_right_comm, frameOccurrences_delay, frameOccurrences_delay]
  exact List.map_append.symm

/-- Which lines occurrences move does not depend on when. -/
theorem exists_delayed_line (d : Nat) (l : List Occurrence) (line : Fin 16) :
    (∃ o ∈ (delayed d l).reverse, o.line = line) ↔ ∃ o ∈ l.reverse, o.line = line := by
  simp [delayed, Occurrence.delay]

/-- Nor do the levels they leave. -/
theorem activeAfter_delayed (d : Nat) (l : List Occurrence) (line : Fin 16) :
    activeAfter (delayed d l).reverse line = activeAfter l.reverse line := by
  rw [delayed, ← List.map_reverse]
  induction l.reverse with
  | nil => rfl
  | cons a rest ih => rw [List.map_cons, activeAfter_cons, activeAfter_cons, ih]; rfl

/-- Levels after later occurrences do not depend on when these come. -/
theorem activeAfter_delayed_append (d : Nat) (later earlier : List Occurrence) (line : Fin 16) :
    activeAfter ((delayed d later).reverse ++ earlier) line = activeAfter (later.reverse ++ earlier) line := by
  simp only [activeAfter_append, activeAfter_delayed, exists_delayed_line]

/-- A walk gone through once more leaves the levels it left. -/
theorem activeAfter_twice (l : List Occurrence) (line : Fin 16) : activeAfter (l ++ l) line = activeAfter l line := by
  rw [activeAfter_append, ite_self]

/-! ### The passed checks (R45, R48, R49) -/

/-- The walk of INTERLOCK is the cycle, two frames later. -/
theorem Plan.interlock_walk (p : Plan) : p.twoFrames .even (2 * p.frameLength) = delayed (2 * p.frameLength) p.cycle := by
  rw [Plan.cycle, ← twoFrames_delay, Nat.zero_add]

/-- The levels before an odd frame are those that the cycle has behind its even frame. -/
theorem Plan.activeAfter_twoFrames_odd (p : Plan) (line : Fin 16) :
    activeAfter (p.twoFrames .odd 0).reverse line =
      activeAfter ((p.frameOccurrences .even 0).reverse ++ p.cycle.reverse) line := by
  simp only [Plan.cycle, Plan.twoFrames, Parity.other, p.frameOccurrences_delay _ 0 p.frameLength, List.reverse_append,
    activeAfter_append, activeAfter_delayed, exists_delayed_line]
  by_cases even : ∃ o ∈ (p.frameOccurrences .even 0).reverse, o.line = line
  · simp only [if_pos even]
  · simp only [if_neg even, activeAfter_of_absent even]
    split
    · rfl
    · rename_i odd
      exact activeAfter_of_absent odd

section

variable {t : GroupTable} {g : Fin 6} {x y : Fin 16} {p : Plan}

/-- Two members are apart at the end of a cycle that passes INTERLOCK: if the cycle moves one of them, walking it behind
itself has brought them apart, and otherwise both are INACTIVE throughout. -/
theorem apartAfter_cycle (passes : p.firstInterlock t = none) (ne : x ≠ y) (hx : t.groupOf x = some g)
    (hy : t.groupOf y = some g) : ApartAfter p.cycle.reverse x y := by
  rw [Plan.firstInterlock, p.interlock_walk] at passes
  by_cases moves : ∃ o ∈ p.cycle.reverse, o.line = x ∨ o.line = y
  · obtain ⟨o, ho, own⟩ := moves
    have moved : o.delay (2 * p.frameLength) ∈ delayed (2 * p.frameLength) p.cycle :=
      List.mem_map_of_mem (List.mem_reverse.1 ho)
    have apart := apartAfter_walk ne hx hy passes (.inr ⟨_, moved, own⟩)
    simpa only [ApartAfter, activeAfter_delayed_append, activeAfter_twice] using apart
  · have absent : ¬∃ o ∈ p.cycle.reverse, o.line = x := fun ⟨o, ho, own⟩ => moves ⟨o, ho, .inl own⟩
    rintro ⟨ax, -⟩
    rw [activeAfter_of_absent absent] at ax
    cases ax

/-- And so they are at every point of the cycle. -/
theorem apartAfter_cycle_part (passes : p.firstInterlock t = none) (ne : x ≠ y) (hx : t.groupOf x = some g)
    (hy : t.groupOf y = some g) {walked : List Occurrence} (part : walked <+: p.cycle) :
    ApartAfter (walked.reverse ++ p.cycle.reverse) x y := by
  have start := apartAfter_cycle passes ne hx hy
  rw [Plan.firstInterlock, p.interlock_walk] at passes
  have later : delayed (2 * p.frameLength) walked <+: delayed (2 * p.frameLength) p.cycle := part.map _
  have apart := apartAfter_walk ne hx hy (GroupTable.firstConflict_part later passes) (.inl start)
  simpa only [ApartAfter, activeAfter_delayed_append] using apart

/-- Two members are apart at the end of the old frame, whichever parity the new frame has. -/
theorem apartAfter_twoFrames (passes : p.firstInterlock t = none) (ne : x ≠ y) (hx : t.groupOf x = some g)
    (hy : t.groupOf y = some g) (parity : Parity) : ApartAfter (p.twoFrames parity 0).reverse x y := by
  cases parity with
  | even => exact apartAfter_cycle passes ne hx hy
  | odd =>
    have apart := apartAfter_cycle_part passes ne hx hy (walked := p.frameOccurrences .even 0) ⟨_, rfl⟩
    simpa only [ApartAfter, p.activeAfter_twoFrames_odd] using apart

end

/-- Settles O22: a walk that passes keeps members apart that begin apart, and a passed cycle begins with them apart. -/
theorem passedChecksKeepGroupsApart : Obligations.PassedChecksKeepGroupsApart := by
  intro old t passes g x y ne hx hy
  refine ⟨fun walked part => apartAfter_cycle_part passes ne hx hy part, ?gap,
    fun new parity junction walked part => ?junction⟩
  case gap =>
    rintro before o after f split rises rfl fall
    have apart := (t.firstConflict_none_iff _ _).1 passes before o after split rises g y hx ne.symm hy
    exact apart.2 f fall
  case junction =>
    exact apartAfter_walk ne hx hy (GroupTable.firstConflict_part part junction)
      (.inl (apartAfter_twoFrames passes ne hx hy parity))

end Sys2Proof.Machine

/-! The commit path: COMMIT, the three checks of a validation and its completion, WITHDRAW, and the trip notice at the
plan store. -/

namespace Sys2Proof.Machine

/-! ### COMMIT (R38, R51) -/

theorem State.tripped_iff (s : State) : s.tripped = true ↔ s.trip.state = .tripped := beq_iff_eq

theorem State.timebaseStopped_iff (s : State) : s.timebaseStopped = true ↔ s.timebase.state = .stopped := beq_iff_eq

theorem State.commit_busy (s : State) (h : s.plan.staging ≠ .editing) : s.commit = (s, .busy) := if_pos h

/-- In EDITING the trip controller's state decides, and a commit taken notes whether TRANSITION will run. -/
theorem State.commit_editing (s : State) (editing : s.plan.staging = .editing) :
    s.commit = if s.trip.state = .tripped then (s, .tripped) else
      ({ s with
        plan := { s.plan with staging := .validating, lateWithdraw := false, since := s.environment.clk },
        validator := { s.validator with
          running := true, junction := decide (s.timebase.state ≠ .stopped) } }, .ok) := by
  have noted : (!s.timebaseStopped) = decide (s.timebase.state ≠ .stopped) := by
    simp [← s.timebaseStopped_iff]
  rw [State.commit, if_neg (not_not.2 editing), noted]
  exact if_congr s.tripped_iff rfl rfl

/-- Settles O18: the owner answers BUSY outside EDITING, and there by the trip controller's state. -/
theorem commitStartsValidation : Obligations.CommitStartsValidation := by
  intro s at_word
  have acts {t : State} {code : ResultCode} (h : s.commit = (t, code)) :
      exec .commit s = .next (t.acted 0x27#7 code) := State.action_of_owner at_word h
  refine ⟨fun busy => acts (s.commit_busy busy),
    fun editing tripped => acts ((s.commit_editing editing).trans (if_pos tripped)),
    fun editing armed => acts ((s.commit_editing editing).trans (if_neg ?_))⟩
  rw [armed]; decide

/-! ### The three checks (R41, R47 to R50) -/

section

variable {t : GroupTable} {old new : Plan} {junction : Bool}

theorem validationFailure_alternation {o : Occurrence} (h : new.firstRepeat = some o) :
    validationFailure t old new junction = some (o.report .alternation) := by
  unfold validationFailure; rw [h]

theorem validationFailure_interlock (alternates : new.firstRepeat = none) {o : Occurrence}
    (h : new.firstInterlock t = some o) : validationFailure t old new junction = some (o.report .interlock) := by
  unfold validationFailure; rw [alternates, h]

/-- Past the checks of the new plan alone TRANSITION decides, where it runs. -/
theorem validationFailure_transition (alternates : new.firstRepeat = none) (apart : new.firstInterlock t = none) :
    validationFailure t old new junction =
      if junction then (transitionConflict t old new).map fun o => o.report .transition else none := by
  unfold validationFailure; rw [alternates, apart]

/-- What a junction reports is of the frame it leads into. -/
theorem junctionConflict_parity {parity : Parity} {o : Occurrence} (h : junctionConflict t old new parity = some o) :
    o.parity = parity := by
  obtain ⟨before, after, split, -⟩ := GroupTable.firstConflict_some h
  have ho : o ∈ startEvents (old.twoFrames parity 0).reverse new parity (2 * old.frameLength)
      ++ new.frameOccurrences parity (2 * old.frameLength) := by rw [split]; simp
  rcases List.mem_append.1 ho with starts | frame
  · rcases List.mem_append.1 starts with hi | hi <;> obtain ⟨i, -, rfl⟩ := List.mem_map.1 hi <;> rfl
  · obtain ⟨e, -, -, -, rfl⟩ := (new.mem_frameOccurrences _ _ _).1 frame
    rfl

end

/-- What ALTERNATION and INTERLOCK report is an occurrence of an entry, and no start event. -/
theorem Plan.twoFrames_startRise {p : Plan} {first : Parity} {base : Nat} {o : Occurrence}
    (h : o ∈ p.twoFrames first base) : o.startRise = false := by
  rcases List.mem_append.1 h with h | h <;> obtain ⟨e, -, -, -, rfl⟩ := (p.mem_frameOccurrences _ _ _).1 h <;> rfl

theorem Plan.firstRepeat_startRise {p : Plan} {o : Occurrence} (h : p.firstRepeat = some o) : o.startRise = false := by
  obtain ⟨before, after, split, -⟩ := firstWhere_some ((firstRepeat_eq _ _).symm.trans h)
  exact Plan.twoFrames_startRise (p := p) (first := .even) (base := 0) (by rw [← Plan.cycle, split]; simp)

theorem Plan.firstInterlock_startRise {p : Plan} {t : GroupTable} {o : Occurrence} (h : p.firstInterlock t = some o) :
    o.startRise = false := by
  obtain ⟨before, after, split, -⟩ := GroupTable.firstConflict_some h
  exact Plan.twoFrames_startRise (p := p) (first := .even) (base := 2 * p.frameLength) (by rw [split]; simp)

/-- The start events, with the start levels of the table that a pass writes (R43, R48). -/
theorem startEvents_eq (history : List Occurrence) (new : Plan) (parity : Parity) (time : Nat) :
    startEvents history new parity time =
      ((allLines.filter fun i => activeAfter history i = true ∧ new.derivedTable.level parity i ≠ .active).map fun i =>
        ⟨time, i, false, parity, 0, true⟩)
      ++ ((allLines.filter fun i => activeAfter history i = false ∧ new.derivedTable.level parity i = .active).map
        fun i => ⟨time, i, true, parity, 0, true⟩) := by
  have falls (i : Fin 16) : (activeAfter history i && new.startLevel parity i != .active) =
      decide (activeAfter history i = true ∧ new.derivedTable.level parity i ≠ .active) := by
    rw [new.derivedTable_level, Bool.eq_iff_iff]; simp
  have rises (i : Fin 16) : (!activeAfter history i && new.startLevel parity i == .active) =
      decide (activeAfter history i = false ∧ new.derivedTable.level parity i = .active) := by
    rw [new.derivedTable_level, Bool.eq_iff_iff]; simp
  simp only [startEvents, falls, rises]

/-! ### VALIDATION_COMPLETION (R51, R52, R55) -/

theorem State.completeValidation_passes (s : State) (validating : s.plan.staging = .validating)
    (running : s.validator.running = true)
    (passes : validationFailure s.groupTable s.plan.active s.plan.stagingPlan s.validator.junction = none) :
    s.completeValidation = s.validationPasses := by
  rw [State.completeValidation, if_pos ⟨validating, running⟩, passes]

theorem State.completeValidation_fails (s : State) (validating : s.plan.staging = .validating)
    (running : s.validator.running = true) {report : Report}
    (fails : validationFailure s.groupTable s.plan.active s.plan.stagingPlan s.validator.junction = some report) :
    s.completeValidation = s.validationFails report := by
  rw [State.completeValidation, if_pos ⟨validating, running⟩, fails]

/-- What a pass writes before the swap or the wait for it: the table with the mark, and the report (R51). -/
def State.passWritten (s : State) : State :=
  { s.setStaging { s.plan.stagingPlan with table := some s.plan.stagingPlan.derivedTable } with
    validator := ⟨false, s.validator.junction, .pass s.validator.junction⟩ }

theorem State.validationPasses_eq (s : State) :
    s.validationPasses = if s.timebase.state = .stopped then (s.passWritten.setFlag .vpass).takeSwap
      else (s.passWritten.setFlag .vpass).setStagingState .pending :=
  if_congr s.timebaseStopped_iff rfl rfl

theorem State.takeSwap_vpass (s : State) :
    (s.setFlag .vpass).takeSwap = State.withFlags { s with plan := s.plan.swap } 0x0006#13 := by
  have flags : s.interrupts.flags ||| Flag.mask .vpass ||| Flag.mask .taken = s.interrupts.flags ||| 0x0006#13 := by
    rw [BitVec.or_assoc]; rfl
  simp only [State.takeSwap, State.setFlag, Interrupts.withFlag, flags]
  rfl

/-- Settles O19: the checks in their order, the walks they make, and the completion in its three cases. -/
theorem validationCompletes : Obligations.ValidationCompletes := by
  refine ⟨fun t old new junction => ?checks, fun t history walk => ⟨t.firstConflict_none_iff _ _, ?first⟩,
    fun t old new parity starts h => ⟨rfl, ?junctions⟩, fun s rst validating running => ⟨fun passes => ?pass, ?fail⟩⟩
  case checks =>
    refine ⟨fun o h => ?_, fun alternates => ⟨fun o h => ?_, fun apart => ?_⟩⟩
    · rw [validationFailure_alternation h, Occurrence.report, Plan.firstRepeat_startRise h]; rfl
    · rw [validationFailure_interlock alternates h, Occurrence.report, Plan.firstInterlock_startRise h]; rfl
    rw [validationFailure_transition alternates apart]
    refine ⟨fun off => by rw [off]; rfl, fun on => ?_⟩
    rw [on, if_pos rfl, transitionConflict]
    refine ⟨fun o even => ?_, fun even => ⟨fun o odd => ?_, fun odd => ?_⟩⟩
    · rw [even, ← junctionConflict_parity even]; rfl
    · rw [even, odd, ← junctionConflict_parity odd]; rfl
    · rw [even, odd]; rfl
  case first =>
    intro o h
    obtain ⟨before, after, split, rises, conflict, none_before⟩ := GroupTable.firstConflict_some h
    exact ⟨before, after, split, rises, conflict, (t.firstConflict_none_iff _ _).1 none_before⟩
  case junctions => rw [h, ← startEvents_eq]; rfl
  case pass =>
    have completes : exec .validationCompletion s = .next s.validationPasses :=
      (State.event_next rst _).trans (by rw [s.completeValidation_passes validating running passes])
    rw [completes, s.validationPasses_eq]
    refine ⟨fun stopped => ?_, fun moving => by rw [if_neg moving]; rfl⟩
    rw [if_pos stopped, State.takeSwap_vpass, PlanStore.swap]
    simp only [State.passWritten, State.setStaging_plan, PlanStore.withStaging_selector,
      PlanStore.withStaging_generation]
    rfl
  case fail =>
    intro report fails
    refine (State.event_next rst s.completeValidation).trans ?_
    rw [s.completeValidation_fails validating running fails]
    rfl

/-! ### WITHDRAW (R56, R57) -/

theorem State.withdraw_validating (s : State) (h : s.plan.staging = .validating) :
    s.withdraw = ({ s with
      plan := { s.plan with staging := .editing, lateWithdraw := false },
      validator := { s.validator with running := false } }, .ok) := by
  unfold State.withdraw; rw [h]; rfl

theorem State.withdraw_pending (s : State) (h : s.plan.staging = .pending) :
    s.withdraw = ({ s with plan := { s.plan with staging := .editing, lateWithdraw := false } }, .ok) := by
  unfold State.withdraw; rw [h]; rfl

theorem State.withdraw_editing (s : State) (h : s.plan.staging = .editing) :
    s.withdraw = (s.setLateWithdraw false, if s.plan.lateWithdraw then .tooLate else .state) := by
  unfold State.withdraw; rw [h]

theorem State.withdraw_copying (s : State) (h : s.plan.staging = .copying) :
    s.withdraw = (s.setLateWithdraw false, .state) := by
  unfold State.withdraw; rw [h]

/-! ### The trip notice at the plan store (R59) -/

/-- The oldest notice leaves the transit, and a commit under way is cancelled. -/
theorem State.planStoreTakesNotice_succ (s : State) {k : Nat} (h : s.transit.planNotices = k + 1) :
    s.planStoreTakesNotice = State.cancelCommit { s with transit := { s.transit with planNotices := k } } .trip := by
  unfold State.planStoreTakesNotice; rw [h]

theorem State.cancelCommit_under_way (s : State) (cause : CancelCause)
    (h : s.plan.staging = .validating ∨ s.plan.staging = .pending) :
    s.cancelCommit cause = { s with
      plan := { s.plan with staging := .editing },
      validator := ⟨false, s.validator.junction, .cancelled cause⟩ } := if_pos h

theorem State.cancelCommit_none (s : State) (cause : CancelCause)
    (h : s.plan.staging = .editing ∨ s.plan.staging = .copying) : s.cancelCommit cause = s :=
  if_neg (by rcases h with h | h <;> rw [h] <;> decide)

/-- Settles O23: WITHDRAW by the staging state, and the notice by whether a commit is under way. -/
theorem commitIsWithdrawnOrCancelled : Obligations.CommitIsWithdrawnOrCancelled := by
  refine ⟨fun s at_word => ?withdraw, fun s k rst notice => ?notice⟩
  case withdraw =>
    exact ⟨fun h => State.action_of_owner at_word (s.withdraw_validating h),
      fun h => State.action_of_owner at_word (s.withdraw_pending h),
      fun h => State.action_of_owner at_word (s.withdraw_editing h),
      fun h => State.action_of_owner at_word (s.withdraw_copying h)⟩
  case notice =>
    have takes : exec .tripNoticePlanStore s = .next s.planStoreTakesNotice := State.event_next rst _
    rw [takes, s.planStoreTakesNotice_succ notice]
    exact ⟨fun h => congrArg _ (State.cancelCommit_under_way _ _ h), fun h => congrArg _ (State.cancelCommit_none _ _ h)⟩

end Sys2Proof.Machine

/-! The read side of the register map: the fields of a word laid out as a sum, the status byte, STATUS, the validation
report and the counters. -/

namespace Sys2Proof.Machine

/-! ### Fields of a word laid out as a sum -/

theorem bitOf_le_one (b : Bool) : bitOf b ≤ 1 := by cases b <;> decide

/-- A bit of a word laid out as a sum, in terms omega reads. -/
theorem getLsbD_ofNat_eq_iff (n x k : Nat) (b : Bool) :
    (BitVec.ofNat n x).getLsbD k = b ↔ (k < n ∧ x / 2 ^ k % 2 = 1 ↔ bitOf b = 1) := by
  rw [BitVec.getLsbD_ofNat, Nat.testBit_eq_decide_div_mod_eq]
  cases b <;> simp [bitOf]

theorem extractLsb'_ofNat_toNat (n x start len : Nat) :
    ((BitVec.ofNat n x).extractLsb' start len).toNat = x % 2 ^ n / 2 ^ start % 2 ^ len := by
  rw [BitVec.extractLsb'_toNat, BitVec.toNat_ofNat, Nat.shiftRight_eq_div_pow]

/-! ### The status byte (R191) -/

theorem Staging.code_lt (g : Staging) : g.code < 4 := by cases g <;> decide

theorem TimebaseState.underWay_iff (b : TimebaseState) :
    b.underWay = true ↔ b = .awaitSync ∨ b = .running ∨ b = .holding ∨ b = .stopping := by
  cases b <;> simp [TimebaseState.underWay]

/-- INT# is low for a flag that is set and enabled (R205). -/
theorem State.intLow_iff (s : State) : s.intLow = true ↔
    ∃ k : Nat, k < 13 ∧ s.interrupts.flags.getLsbD k = true ∧ s.interrupts.enables.getLsbD k = true := by
  rw [← not_iff_not]
  simp only [State.intLow, bne_iff_ne, ne_eq, not_not, not_exists, not_and]
  constructor
  · intro clear k _ flag enable
    have bit := congrArg (·.getLsbD k) clear
    simp [flag, enable] at bit
  · intro clear
    refine BitVec.eq_of_getLsbD_eq fun k hk => ?_
    simpa using clear k hk

/-- The seven fields of a status byte, and what each is read from. -/
theorem statusByte_fields (trip int way results fails busy : Bool) {code : Nat} (h : code < 4) (status : Byte)
    (laid_out : status = BitVec.ofNat 8 (128 * bitOf trip + 64 * bitOf int + 16 * code + 8 * bitOf way
      + 4 * bitOf results + 2 * bitOf fails + bitOf busy)) :
    status.getLsbD 7 = trip ∧ status.getLsbD 6 = int ∧ (status.extractLsb' 4 2).toNat = code ∧
      status.getLsbD 3 = way ∧ status.getLsbD 2 = results ∧ status.getLsbD 1 = fails ∧ status.getLsbD 0 = busy := by
  have := bitOf_le_one trip
  have := bitOf_le_one int
  have := bitOf_le_one way
  have := bitOf_le_one results
  have := bitOf_le_one fails
  have := bitOf_le_one busy
  simp only [laid_out, getLsbD_ofNat_eq_iff, extractLsb'_ofNat_toNat]
  omega

/-! ### STATUS (R195) -/

theorem timebaseField_lt (b : TimebaseState) (trip : TripState) : timebaseField b trip < 8 := by
  cases b <;> cases trip <;> decide

theorem converterField_lt (c : ConverterState) {count : Nat} (h : count ≤ 4) : converterField c count < 16 := by
  cases c <;> simp only [converterField] <;> omega

theorem CalReport.code_lt (r : CalReport) : r.code < 4 := by cases r <;> decide

theorem State.statusWord_fields (s : State) (count : s.sampler.queue.length ≤ 4) (trim : s.converter.trim ≤ 31) :
    (s.statusWord.extractLsb' 0 3).toNat = timebaseField s.timebase.state s.trip.state ∧
      (s.statusWord.extractLsb' 3 2).toNat = s.plan.staging.code ∧
      (s.statusWord.extractLsb' 5 4).toNat = converterField s.converter.state s.sampler.queue.length ∧
      (s.statusWord.extractLsb' 9 2).toNat = s.converter.report.code ∧
      (s.statusWord.extractLsb' 11 5).toNat = s.converter.trim := by
  have timebase := timebaseField_lt s.timebase.state s.trip.state
  have staging := s.plan.staging.code_lt
  have converter := converterField_lt s.converter.state count
  have report := s.converter.report.code_lt
  simp only [State.statusWord, extractLsb'_ofNat_toNat]
  omega

/-! ### ACT_RESULT (R197) -/

theorem wordOfBytes_lower {lower upper : Nat} (h : lower < 256) :
    ((wordOfBytes lower upper).extractLsb' 0 8).toNat = lower := by
  simp only [wordOfBytes, extractLsb'_ofNat_toNat]; omega

theorem wordOfBytes_upper {lower upper : Nat} (h : lower < 256) (k : upper < 256) :
    ((wordOfBytes lower upper).extractLsb' 8 8).toNat = upper := by
  simp only [wordOfBytes, extractLsb'_ofNat_toNat]; omega

theorem ResultCode.code_lt (c : ResultCode) : c.code < 256 := by cases c <;> decide

/-! ### IFLAG and IENABLE (R204, R205) -/

/-- The thirteen flags read in their own bits, and 0 above them. -/
theorem getLsbD_setWidth_flags (flags : BitVec 13) (k : Nat) : (flags.setWidth 16).getLsbD k = flags.getLsbD k := by
  rw [BitVec.getLsbD_setWidth]
  by_cases inside : k < 16
  · simp [inside]
  · simp [inside, BitVec.getLsbD_of_ge flags k (by omega)]

/-! ### The validation report (R50, R195) -/

theorem Parity.code_eq (p : Parity) : p.code = bitOf (p = .odd) := by cases p <;> rfl

theorem State.readRegister_report (s : State) {report : Report} (h : s.validator.report = report) :
    s.readRegister 0x0C#7 = report.words.1 ∧ s.readRegister 0x0D#7 = report.words.2.1 ∧
      s.readRegister 0x0E#7 = report.words.2.2 := by
  rw [← h]; exact ⟨rfl, rfl, rfl⟩

/-- The fields of the report's word at 0Eh. -/
theorem Report.fail_fields (junction : Bool) (check : PlanCheck) (parity : Parity) (offset : Nat) (line : Fin 16)
    (startRise : Bool) (word : Word) (h : word = (Report.fail junction check parity offset line startRise).words.2.2) :
    (word.extractLsb' 0 8).toNat = line.val ∧ word.getLsbD 8 = decide (parity = .odd) ∧
      word.getLsbD 9 = junction ∧ word.getLsbD 10 = startRise ∧ word.extractLsb' 11 5 = 0#5 := by
  have := bitOf_le_one (parity = .odd)
  have := bitOf_le_one junction
  have := bitOf_le_one startRise
  have := line.isLt
  simp only [h, Report.words, parity.code_eq, ← BitVec.toNat_inj, getLsbD_ofNat_eq_iff, extractLsb'_ofNat_toNat,
    BitVec.toNat_ofNat]
  omega

/-! ### The counters and what lies between the registers (R193, R202) -/

/-- From 16h on, and at 0Fh, a read word is a counter or 0. -/
theorem State.readRegister_counter (s : State) (a : Address) (h : a.toNat = 0x0F ∨ 0x16 ≤ a.toNat) :
    s.readRegister a = s.counterWord a.toNat := by
  unfold State.readRegister
  split
  case h_22 => rfl
  all_goals omega

theorem State.counterWord_deferred (s : State) (g : Fin 6) :
    s.counterWord (0x42 + g.val) = BitVec.ofNat 16 s.groups[g].deferred := by
  have := g.isLt
  rw [State.counterWord, if_neg (by omega), if_neg (by omega), dif_pos (by omega)]
  simp

theorem State.counterWord_abandoned (s : State) (g : Fin 6) :
    s.counterWord (0x48 + g.val) = BitVec.ofNat 16 s.groups[g].abandoned := by
  have := g.isLt
  rw [State.counterWord, if_neg (by omega), if_neg (by omega), dif_neg (by omega), dif_pos (by omega)]
  simp

theorem State.counterWord_drops (s : State) (n : Fin 8) :
    s.counterWord (0x4E + n.val) = BitVec.ofNat 16 s.sampler.slots[n].drops := by
  have := n.isLt
  rw [State.counterWord, if_neg (by omega), if_neg (by omega), dif_neg (by omega), dif_neg (by omega),
    dif_pos (by omega)]
  simp

theorem State.counterWord_none (s : State) (k : Nat) (h : k < 0x40 ∨ 0x58 ≤ k) : s.counterWord k = 0#16 := by
  rw [State.counterWord, if_neg (by omega), if_neg (by omega), dif_neg (by omega), dif_neg (by omega),
    dif_neg (by omega), if_neg (by omega), if_neg (by omega)]

/-- A counter's register, by its number. -/
theorem State.readRegister_ofNat (s : State) (k : Nat) (least : 0x16 ≤ k) (most : k < 0x80) :
    s.readRegister (BitVec.ofNat 7 k) = s.counterWord k := by
  have number : (BitVec.ofNat 7 k).toNat = k := by rw [BitVec.toNat_ofNat]; omega
  rw [s.readRegister_counter _ (by omega), number]

/-- Settles O5: each field of a read-out is the part of its sum that the layout gives it. -/
theorem statusReadOuts : Obligations.StatusReadOuts := by
  intro s
  refine ⟨?status, fun count trim => ?statusWord, ?registers, ?reportNone, ?reportPass, ?reportFail, ?reportCancelled,
    ?counters, ?others⟩
  case status =>
    obtain ⟨trip, int, staging, way, results, code, converter⟩ :=
      statusByte_fields _ _ _ _ _ _ s.plan.staging.code_lt s.statusNow rfl
    refine ⟨trip ▸ s.tripped_iff, int ▸ s.intLow_iff, staging.trans ?_, way ▸ s.timebase.state.underWay_iff,
      results ▸ by simp, code ▸ bne_iff_ne, converter ▸ bne_iff_ne⟩
    cases s.plan.staging <;> rfl
  case statusWord =>
    obtain ⟨timebase, staging, converter, report, kept⟩ := s.statusWord_fields count trim
    refine ⟨timebase.trans ?_, staging.trans ?_, converter.trans ?_, report.trans ?_, kept⟩
    · cases s.timebase.state <;> rfl
    · cases s.plan.staging <;> rfl
    · cases s.converter.state <;> rfl
    · cases s.converter.report <;> rfl
  case registers =>
    refine ⟨rfl, ?_, ?_, fun k => ?_, fun k => ?_, rfl, rfl, rfl, rfl, rfl, rfl, rfl⟩
    · refine (wordOfBytes_lower s.port.code.code_lt).trans ?_
      cases s.port.code <;> rfl
    · exact wordOfBytes_upper s.port.code.code_lt (by omega)
    · exact getLsbD_setWidth_flags _ k
    · exact getLsbD_setWidth_flags _ k
  case reportNone => exact fun h => s.readRegister_report h
  case reportPass =>
    intro junction h
    obtain ⟨outcome, offset, fields⟩ := s.readRegister_report h
    refine ⟨outcome, offset, fields.trans ?_⟩
    cases junction <;> rfl
  case reportFail =>
    intro junction check parity offset line startRise h
    obtain ⟨outcome, place, fields⟩ := s.readRegister_report h
    obtain ⟨at_line, of_parity, rest⟩ := Report.fail_fields _ _ _ _ _ _ _ fields
    refine ⟨outcome.trans ?_, place, at_line, of_parity ▸ decide_eq_true_iff, rest⟩
    cases check <;> rfl
  case reportCancelled =>
    intro cause h
    obtain ⟨outcome, offset, fields⟩ := s.readRegister_report h
    refine ⟨outcome.trans ?_, offset, fields⟩
    cases cause <;> rfl
  case counters =>
    refine ⟨rfl, rfl, rfl, rfl, fun g => ?_, fun g => ?_, fun n => ?_, rfl, rfl⟩
    · rw [s.readRegister_ofNat _ (by omega) (by omega), s.counterWord_deferred]
    · rw [s.readRegister_ofNat _ (by omega) (by omega), s.counterWord_abandoned]
    · rw [s.readRegister_ofNat _ (by omega) (by omega), s.counterWord_drops]
  case others =>
    intro a h
    have number : a.toNat = 0x0F ∨ (0x16 ≤ a.toNat ∧ a.toNat ≤ 0x3F) ∨ 0x58 ≤ a.toNat := by bv_omega
    rw [s.readRegister_counter a (by omega), s.counterWord_none _ (by omega)]

end Sys2Proof.Machine

/-! How frames end and ticks begin: the boundary and the stop notice as equations, and what the begin of a tick leaves
to the timebase. -/

namespace Sys2Proof.Machine

/-! ### The stop notice (R72, R131) -/

/-- With no claim under way there is nothing to take. -/
theorem State.takeAllClaims_none (s : State) (absent : s.transit.claims = []) : s.takeAllClaims = s := by
  have unchanged : ({ s with transit := { s.transit with claims := [] } } : State) = s := by rw [← absent]
  rw [State.takeAllClaims, unchanged, absent]
  rfl

/-- With no claim under way the stop notice finds the lines as they stand. -/
theorem State.stopLines_eq (s : State) (absent : s.transit.claims = []) : s.stopLines = { s with
    lines := tabulate fun i => s.lines[i].stopped,
    groups := tabulate fun g => { s.groups[g] with queue := [] } } := by
  simp only [State.stopLines, s.takeAllClaims_none absent, State.emptyQueues, mapTable_eq_tabulate]

theorem State.becomeStopped_eq (s : State) (absent : s.transit.claims = []) : s.becomeStopped = s.stopNoticeTaken := by
  rw [State.becomeStopped, State.stopLines_eq]
  · rfl
  · exact absent

/-! ### The boundary (R75) -/

/-- The divider counts on, or restarts with FRAME (R77). -/
theorem State.advanceDivider_eq (s : State) : s.advanceDivider = State.withFlags
    { s with timebase := { s.timebase with
      dividerCount := if s.timebase.dividerCount + 1 < s.timebase.divider then s.timebase.dividerCount + 1 else 0 } }
    (if s.timebase.dividerCount + 1 < s.timebase.divider then 0x0000#13 else 0x0001#13) := by
  unfold State.advanceDivider
  by_cases below : s.timebase.dividerCount + 1 < s.timebase.divider
  · simp [below, State.withFlags]
  · rw [if_neg below, if_neg below, if_neg below]
    rfl

/-- A swap that waits is taken with TAKEN (R54). -/
theorem State.boundaryNotice_eq (s : State) : s.boundaryNotice = State.withFlags
    { s with plan := if s.plan.staging = .pending then s.plan.swap else s.plan }
    (if s.plan.staging = .pending then 0x0002#13 else 0x0000#13) := by
  unfold State.boundaryNotice
  by_cases waits : s.plan.staging = .pending
  · rw [if_pos waits, if_pos waits, if_pos waits]
    rfl
  · simp [waits, State.withFlags]

/-- The counter, the frame number and SYNC_OUT, then the divider, then the boundary notice are the end of a frame. -/
theorem State.frameEnded_eq (s : State) :
    State.boundaryNotice (State.advanceDivider { s with timebase := { s.timebase with
      tick := 0, frameNumber := s.timebase.frameNumber + 1#16, syncOut := true } }) = s.frameEnded := by
  rw [State.advanceDivider_eq, State.boundaryNotice_eq]
  rfl

/-- A boundary out of STOPPING stops the timebase (R71). -/
theorem State.boundary_stopping (s : State) (stopping : s.timebase.state = .stopping)
    (absent : s.transit.claims = []) : s.boundary = s.frameEnded.stopNoticeTaken := by
  unfold State.boundary
  rw [if_pos (by rw [stopping]; rfl), s.frameEnded_eq]
  exact State.becomeStopped_eq _ absent

/-- A boundary out of any other state begins the next frame. -/
theorem State.boundary_continues (s : State) (continues : s.timebase.state ≠ .stopping) :
    s.boundary = s.frameEnded.nextFrame := by
  unfold State.boundary
  rw [if_neg (by simpa using continues), s.frameEnded_eq]
  rfl

/-! ### What the begin of a tick leaves (R63, R109, R125) -/

/-- Ages, waits and heads leave the timebase as the tick clock sets it, and leave the plan store, the engine, the lines'
modes and what the engine has handed on. -/
structure TickBegunFrame (s v : State) : Prop where
  timebase : v.timebase = s.tickPassed.timebase
  plan     : v.plan = s.plan
  engine   : v.engine = s.engine
  modes    : ∀ i : Fin 16, v.lines[i].mode = s.lines[i].mode
  claims   : v.transit.claims = s.transit.claims
  tags     : v.transit.tags = s.transit.tags
  steps    : v.transit.steps = s.transit.steps

theorem State.TickBegun.frame {s v : State} (begun : s.TickBegun v) : TickBegunFrame s v := by
  obtain ⟨owed, _, rfl⟩ := begun
  have kept := (State.headsExamined_moves { s.tickPassed with
    groups := tabulate fun g => { s.groups[g] with
      queue := s.groups[g].queue.map fun w => { w with wait := w.wait + 1 } },
    transit := { s.transit with headOwed := owed } } fun g => !owed.getLsbD g.val).frame
  have transit := kept.transit
  exact ⟨kept.timebase, kept.plan, kept.engine, fun i => (kept.modes i).trans (by simp [State.tickPassed]),
    by rw [transit], by rw [transit], by rw [transit]⟩

/-- A tick of a settled state: it begins, and then the timebase takes it with the arrival acted on at it. -/
theorem exec_tick_settled {s : State} (high : s.rstLow = false) (settled : s.Settled) {arrival : Bool}
    (latched : (s.timebase.arrivalLatch && s.timebase.mode == .follow) = arrival) :
    ∃ v : State, s.TickBegun v ∧ TickBegunFrame s v ∧ exec .tick s = .next (v.timebaseTick arrival) := by
  obtain ⟨v, begun, ticked⟩ := s.oneTick_settled settled
  refine ⟨v, begun, begun.frame, (State.event_next high s.oneTick).trans ?_⟩
  rw [ticked, latched]

/-- No arrival is acted on when none is latched or in FREE mode (R78). -/
theorem arrival_none {b : Timebase} (h : b.arrivalLatch = false ∨ b.mode = .free) :
    (b.arrivalLatch && b.mode == .follow) = false := by
  rcases h with latch | mode
  · rw [latch]; rfl
  · rw [mode]; exact Bool.and_false _

/-- An arrival latched in FOLLOW mode is acted on (R78). -/
theorem arrival_follow {b : Timebase} (latch : b.arrivalLatch = true) (mode : b.mode = .follow) :
    (b.arrivalLatch && b.mode == .follow) = true := by
  rw [latch, mode]; rfl

/-! ### The timebase at a tick, by its state (R74, R78 to R81) -/

theorem State.timebaseTick_walks {s : State} (state : s.timebase.state = .running ∨ s.timebase.state = .stopping) :
    s.timebaseTick false = s.walkTick := by
  unfold State.timebaseTick
  rcases state with state | state <;> rw [state]

theorem State.timebaseTick_arrival {s : State}
    (state : s.timebase.state = .running ∨ s.timebase.state = .stopping) :
    s.timebaseTick true = s.countSkipped.boundary := by
  unfold State.timebaseTick
  rcases state with state | state <;> rw [state] <;> rfl

theorem State.timebaseTick_holding {s : State} (state : s.timebase.state = .holding) (arrival : Bool) :
    s.timebaseTick arrival = if arrival then s.boundary else s.holdTick := by
  unfold State.timebaseTick
  rw [state]
  cases arrival <;> rfl

theorem State.timebaseTick_awaitSync {s : State} (state : s.timebase.state = .awaitSync) (arrival : Bool) :
    s.timebaseTick arrival = if arrival then s.beginFrameZero else s := by
  unfold State.timebaseTick
  rw [state]
  cases arrival <;> rfl

theorem State.timebaseTick_still {s : State} (state : s.timebase.state = .stopped ∨ s.timebase.state = .halted)
    (arrival : Bool) : s.timebaseTick arrival = s := by
  unfold State.timebaseTick
  rcases state with state | state <;> rw [state]

theorem State.holdTick_full {s : State} (full : s.timebase.timeout ≤ s.timebase.timeoutCount) : s.holdTick = s :=
  if_neg (Nat.not_lt.2 full)

/-! ### Standing still -/

/-- Where the timebase stands, a tick is what begins it (R74, R78, R79, R81). -/
theorem State.timebaseTick_stands {s v : State} (stands : s.Stands) (timebase : v.timebase = s.tickPassed.timebase) :
    v.timebaseTick (s.timebase.arrivalLatch && s.timebase.mode == .follow) = v := by
  have state : v.timebase.state = s.timebase.state := by rw [timebase]; rfl
  rcases stands with stopped | halted | ⟨waiting, no_arrival⟩
  · exact State.timebaseTick_still (.inl (state.trans stopped)) _
  · exact State.timebaseTick_still (.inr (state.trans halted)) _
  · rw [arrival_none no_arrival]
    rcases waiting with awaits | ⟨holding, no_timeout⟩
    · exact State.timebaseTick_awaitSync (state.trans awaits) false
    · rw [State.timebaseTick_holding (state.trans holding)]
      refine State.holdTick_full ?_
      rw [timebase]
      exact no_timeout.trans_le (Nat.zero_le _)

theorem State.settleSync_none (s : State) (absent : s.transit.syncExpiry = false) : s.settleSync = s := by
  simp [State.settleSync, absent]

theorem State.examineOwed_none (s : State) (absent : s.transit.headOwed = 0#6) : s.examineOwed = s := by
  have unchanged : ({ s with transit := { s.transit with headOwed := 0#6 } } : State) = s := by rw [← absent]
  rw [State.examineOwed, unchanged]
  exact foldl_id _ _ _ fun g _ => by simp [absent]

/-- An examination owed, made before the tick, leaves the tick as it was: the tick would have made it first. -/
theorem State.settleTick_examineOwed (s : State) (claims : s.transit.claims = [])
    (expiry : s.transit.syncExpiry = false) : s.examineOwed.settleTick = s.settleTick := by
  have transit := s.examineOwed_moves.frame.transit
  have claims' : s.examineOwed.transit.claims = [] := by rw [transit]; exact claims
  have expiry' : s.examineOwed.transit.syncExpiry = false := by rw [transit]; exact expiry
  have owed' : s.examineOwed.transit.headOwed = 0#6 := by rw [transit]
  unfold State.settleTick
  rw [s.settleSync_none expiry, s.takeAllClaims_none claims, s.examineOwed.settleSync_none expiry',
    s.examineOwed.takeAllClaims_none claims', s.examineOwed.examineOwed_none owed']

/-- Settles O28: what begins a tick is all of it, and a settled tick makes the examinations owed first. -/
theorem tickWhereTheTimebaseStands : Obligations.TickWhereTheTimebaseStands := by
  refine ⟨fun s high quiet stands => ?_, fun s v quiet begun => begun.quiet quiet, fun s high settled stands => ?_,
    fun s high claims expiry _ => ?_⟩
  · refine (State.event_next high s.oneTick).trans ?_
    rw [s.oneTick_quiet quiet, State.timebaseTick_stands stands rfl]
  · obtain ⟨v, begun, kept, ticked⟩ := exec_tick_settled high settled rfl
    rw [State.timebaseTick_stands stands kept.timebase] at ticked
    exact ⟨v, begun, ticked⟩
  · have high' : s.examineOwed.rstLow = false := s.examineOwed_moves.frame.rstLow.trans high
    have same : s.examineOwed.oneTick = s.oneTick := by
      unfold State.oneTick
      rw [s.settleTick_examineOwed claims expiry]
    exact (State.event_next high s.oneTick).trans (same ▸ (State.event_next high' _).symm)

end Sys2Proof.Machine

/-! Ticks inside a frame and at its end: the next offset, the boundary, the arrival and the hold. -/

namespace Sys2Proof.Machine

/-! ### A settled tick's state -/

theorem TickBegunFrame.state {s v : State} (kept : TickBegunFrame s v) : v.timebase.state = s.timebase.state := by
  rw [kept.timebase]; rfl

theorem TickBegunFrame.tick {s v : State} (kept : TickBegunFrame s v) : v.timebase.tick = s.timebase.tick := by
  rw [kept.timebase]; rfl

theorem TickBegunFrame.frameLength {s v : State} (kept : TickBegunFrame s v) :
    v.frameLength = s.plan.active.frameLength := by
  rw [State.frameLength, kept.plan]

theorem TickBegunFrame.governingPlan {s v : State} (kept : TickBegunFrame s v) :
    v.governingPlan = s.plan.bank s.engine.governing := by
  rw [State.governingPlan, kept.plan, kept.engine]

/-! ### The boundary after the last offset (R71, R74, R75) -/

/-- Settles O30: beyond the last offset the tick of RUNNING and STOPPING is a boundary. -/
theorem tickTakesTheBoundary : Obligations.TickTakesTheBoundary := by
  intro s high settled last no_arrival
  obtain ⟨v, begun, kept, ticked⟩ := exec_tick_settled high settled (arrival_none no_arrival)
  have ends : v.walkTick = v.boundary := by
    refine if_neg ?_
    rw [kept.tick, kept.frameLength, last]
    exact Nat.lt_irrefl _
  refine ⟨v, begun, fun running _ => ?_, fun stopping => ?_⟩
  · have running' := kept.state.trans running
    rw [ticked, State.timebaseTick_walks (.inl running'), ends, v.boundary_continues (by rw [running']; decide)]
  · have stopping' := kept.state.trans stopping
    rw [ticked, State.timebaseTick_walks (.inr stopping'), ends,
      v.boundary_stopping stopping' (kept.claims.trans settled.claims)]

/-! ### Entries skipped by an arrival (R80, R100) -/

/-- Beyond the tick at which the cursor splits a list stands what is ahead of the cursor. -/
theorem filter_beyond_eq {l : List Entry} {cursor tick : Nat} (due : Entry → Bool)
    (passed : ∀ e ∈ l.take cursor, e.offset ≤ tick) (ahead : ∀ e ∈ l.drop cursor, tick < e.offset) :
    (l.filter fun e => tick < e.offset ∧ due e) = (l.drop cursor).filter due := by
  have before : ((l.take cursor).filter fun e => decide (tick < e.offset ∧ due e)) = [] :=
    List.filter_eq_nil_iff.2 fun e he => by simp [Nat.not_lt.2 (passed e he)]
  have after : ((l.drop cursor).filter fun e => decide (tick < e.offset ∧ due e)) = (l.drop cursor).filter due :=
    List.filter_congr fun e he => by simp [ahead e he]
  conv_lhs => rw [← List.take_append_drop cursor l, List.filter_append, before, List.nil_append, after]

/-- The skipped entries are counted, with SKIP when there is one. -/
theorem State.countSkipped_eq (s : State) : s.countSkipped = State.withFlags
    { s with timebase := { s.timebase with skipCount := min (s.timebase.skipCount + s.skipped) 65535 } }
    (if s.skipped = 0 then 0x0000#13 else 0x1000#13) := by
  unfold State.countSkipped State.setFlagIf
  by_cases unskipped : s.skipped = 0
  · simp [unskipped, State.withFlags, bump16]
  · rw [if_pos (by simpa using unskipped), if_neg unskipped]
    rfl

/-- Settles O31: by the state, the tick after an arrival is frame 0, a boundary, or a boundary behind the skip count. -/
theorem arrivalsEndFrames : Obligations.ArrivalsEndFrames := by
  refine ⟨fun s high => State.event_next high _, fun s high settled latch follow => ?_⟩
  obtain ⟨v, begun, kept, ticked⟩ := exec_tick_settled high settled (arrival_follow latch follow)
  refine ⟨v, begun, fun awaits => ?_, fun holding => ?_, fun passed ahead => ?_⟩
  · have number : v.timebase.frameNumber = s.timebase.frameNumber := by rw [kept.timebase]; rfl
    rw [ticked, State.timebaseTick_awaitSync (kept.state.trans awaits), if_pos rfl, ← number]
    rfl
  · have holding' := kept.state.trans holding
    rw [ticked, State.timebaseTick_holding holding', if_pos rfl, v.boundary_continues (by rw [holding']; decide)]
  · have skipped : v.skipped = ((s.plan.bank s.engine.governing).entries.filter fun e =>
        s.timebase.tick < e.offset ∧ e.due s.engine.parity).length := by
      rw [filter_beyond_eq (fun e => e.due s.engine.parity) passed ahead, State.skipped, kept.governingPlan,
        kept.engine]
    have count : v.timebase.skipCount = s.timebase.skipCount := by rw [kept.timebase]; rfl
    have counted := v.countSkipped_eq
    have state : v.countSkipped.timebase.state = s.timebase.state := v.countSkipped_frameKept.state.trans kept.state
    have claims : v.countSkipped.transit.claims = [] := by
      rw [counted]; exact kept.claims.trans settled.claims
    refine ⟨v.skipped, v.countSkipped, skipped, count ▸ counted, fun running => ?_, fun stopping => ?_⟩
    · rw [ticked, State.timebaseTick_arrival (.inl (kept.state.trans running)),
        State.boundary_continues _ (by rw [state, running]; decide)]
    · rw [ticked, State.timebaseTick_arrival (.inr (kept.state.trans stopping)),
        State.boundary_stopping _ (state.trans stopping) claims]

/-! ### The hold (R81, R82) -/

theorem State.holdTick_counts {s : State} (below : s.timebase.timeoutCount < s.timebase.timeout) :
    s.holdTick = { s with
      timebase := { s.timebase with timeoutCount := s.timebase.timeoutCount + 1 },
      transit := { s.transit with
        syncExpiry := decide (s.timebase.timeoutCount + 1 = s.timebase.timeout) } } := by
  rw [State.holdTick, if_pos below]
  rfl

/-- An expiry in HOLDING is taken: sent as SYNC_LOST, or counted as a sync miss with a boundary. -/
theorem State.settleSync_expires {s : State} (holding : s.timebase.state = .holding)
    (expiry : s.transit.syncExpiry = true) : s.settleSync = s.syncExpires := by
  simp [State.settleSync, expiry, holding]

/-- Settles O32: a hold counts below W and stands at W, and the expiry is judged by the SYNC_LOST enable. -/
theorem holdsCountToTheSyncTimeout : Obligations.HoldsCountToTheSyncTimeout := by
  refine ⟨fun s high settled holding no_arrival below => ?_, fun s high settled holding no_arrival full => ⟨?_, ?_⟩,
    fun s high holding expiry => ?_⟩
  · obtain ⟨v, begun, kept, ticked⟩ := exec_tick_settled high settled (arrival_none no_arrival)
    have count : v.timebase.timeoutCount = s.timebase.timeoutCount := by rw [kept.timebase]; rfl
    have timeout : v.timebase.timeout = s.timebase.timeout := by rw [kept.timebase]; rfl
    refine ⟨v, begun, ?_⟩
    rw [ticked, State.timebaseTick_holding (kept.state.trans holding), if_neg Bool.false_ne_true,
      State.holdTick_counts (by rw [count, timeout]; exact below), count, timeout]
  · obtain ⟨v, begun, kept, ticked⟩ := exec_tick_settled high settled (arrival_none no_arrival)
    refine ⟨v, begun, ?_⟩
    rw [ticked, State.timebaseTick_holding (kept.state.trans holding), if_neg Bool.false_ne_true, State.holdTick_full]
    rw [kept.timebase]
    exact full
  · exact (State.event_next high _).trans (congrArg _ (s.settleSync_none settled.expiry))
  · have taken : exec .syncTimeout s = .next s.syncExpires :=
      (State.event_next high _).trans (congrArg _ (State.settleSync_expires holding expiry))
    refine ⟨fun enabled => ?_, fun disabled => ?_⟩
    · rw [taken, State.syncExpires, if_pos enabled]
      rfl
    · rw [taken, State.syncExpires, if_neg (by rw [disabled]; decide), State.boundary_continues]
      · rfl
      · exact fun stopping => absurd (holding.symm.trans stopping) (by decide)

end Sys2Proof.Machine

/-! The tick inside a frame: the run of entries at the next offset and what the engine hands on there. -/

namespace Sys2Proof.Machine

/-! ### The run at an offset (R90) -/

/-- In a list in key order from offset `o` on, the run at `o` is every entry at `o`. -/
theorem takeWhile_offset_eq_filter {o : Nat} {l : List Entry} (sorted : l.Pairwise fun x y => x.offset ≤ y.offset)
    (from_o : ∀ x ∈ l, o ≤ x.offset) : (l.takeWhile fun x => x.offset == o) = l.filter fun x => x.offset = o := by
  have run : (l.takeWhile fun x => x.offset == o).filter (fun x => x.offset = o)
      = l.takeWhile fun x => x.offset == o :=
    List.filter_eq_self.2 fun x hx => by simpa using List.mem_takeWhile_imp hx
  have beyond : (l.dropWhile fun x => x.offset == o).filter (fun x => x.offset = o) = [] :=
    List.filter_eq_nil_iff.2 fun x hx => by simpa using (lt_offset_of_mem_dropWhile sorted from_o x hx).ne'
  conv_rhs => rw [← List.takeWhile_append_dropWhile (p := fun x : Entry => x.offset == o) (l := l),
    List.filter_append, run, beyond, List.append_nil]

/-- Where the cursor splits a lawful list at `o`, the run at `o + 1` is every entry of the list there. -/
theorem Engine.run_next {p : Plan} (lawful : p.Lawful) (e : Engine) (o : Nat)
    (passed : ∀ x ∈ p.entries.take e.cursor, x.offset ≤ o) (ahead : ∀ x ∈ p.entries.drop e.cursor, o < x.offset) :
    e.run p.entries (o + 1) = p.entries.filter fun x => x.offset = o + 1 := by
  have before : (p.entries.take e.cursor).filter (fun x => x.offset = o + 1) = [] :=
    List.filter_eq_nil_iff.2 fun x hx => by simpa using (Nat.lt_succ_of_le (passed x hx)).ne
  conv_rhs => rw [← List.take_append_drop e.cursor p.entries, List.filter_append, before, List.nil_append]
  exact takeWhile_offset_eq_filter (lawful.sorted_offsets.sublist (List.drop_sublist _ _)) ahead

/-! ### What an offset event hands on (R91, R92) -/

/-- The claims of fired entries read the lines' modes alone. -/
theorem State.planClaims_eq {s v : State} (modes : ∀ i : Fin 16, v.lines[i].mode = s.lines[i].mode)
    (fired : List Entry) : v.planClaims fired =
      ((fired.filter fun e => e.action = .fall ∧ s.lines[e.line].mode = .scheduled).map fun e => .fall e.line)
        ++ ((fired.filter fun e => e.action = .rise ∧ s.lines[e.line].mode = .scheduled).map fun e =>
          .rise e.line) := by
  have due (action : EdgeAction) : (fun e : Entry => e.action == action && v.scheduled e.line)
      = fun e => decide (e.action = action ∧ s.lines[e.line].mode = .scheduled) := by
    funext e
    rw [State.scheduled, modes, Bool.decide_and]
    rfl
  rw [State.planClaims, due, due]

/-- The next offset inside a frame (R74, R81, R90). -/
theorem State.nextOffset_eq {s : State} {run fired : List Entry} {claims : List Claim} {holds : Bool}
    (at_next : run = s.engine.run s.governingPlan.entries (s.timebase.tick + 1))
    (due : fired = run.filter fun e => e.due s.engine.parity) (claimed : claims = s.planClaims fired)
    (held : holds = decide (s.timebase.state = .running ∧ s.timebase.mode = .follow ∧
      s.timebase.tick + 2 = s.frameLength)) :
    s.nextOffset = { s with
      timebase := { s.timebase with
        tick := s.timebase.tick + 1,
        state := if holds then .holding else s.timebase.state,
        timeoutCount := if holds then 0 else s.timebase.timeoutCount },
      engine := { s.engine with cursor := s.engine.cursor + run.length },
      transit := { s.transit with
        claims := if claims = [] then s.transit.claims else s.transit.claims ++ [claims],
        tags := s.transit.tags ++ fired.filterMap fun e =>
          e.tag.map fun slot => ⟨slot, s.engine.frameNumber, s.timebase.tick + 1, s.transit.steps + 1⟩,
        steps := s.transit.steps + 1 } } := by
  have handed : (if claims.isEmpty then s.transit.claims else s.transit.claims ++ [claims])
      = if claims = [] then s.transit.claims else s.transit.claims ++ [claims] :=
    if_congr List.isEmpty_iff rfl rfl
  rw [← handed]
  subst at_next due claimed held
  unfold State.nextOffset
  by_cases holds : s.timebase.state = .running ∧ s.timebase.mode = .follow ∧ s.timebase.tick + 2 = s.frameLength
  · rw [if_pos holds, decide_eq_true holds]
    rfl
  · rw [if_neg holds, decide_eq_false holds]
    rfl

/-- Settles O29: the tick begins, and then the engine walks to the next offset. -/
theorem tickWalksTheFrame : Obligations.TickWalksTheFrame := by
  intro s high settled state no_arrival inside lawful passed ahead
  obtain ⟨v, begun, kept, ticked⟩ := exec_tick_settled high settled (arrival_none no_arrival)
  have walks : v.walkTick = v.nextOffset := if_pos (by rw [kept.tick, kept.frameLength]; exact inside)
  have run : ((s.plan.bank s.engine.governing).entries.filter fun e => e.offset = s.timebase.tick + 1)
      = v.engine.run v.governingPlan.entries (v.timebase.tick + 1) := by
    rw [kept.tick, kept.governingPlan, kept.engine, s.engine.run_next lawful _ passed ahead]
  have mode : v.timebase.mode = s.timebase.mode := by rw [kept.timebase]; rfl
  have count : v.timebase.timeoutCount = s.timebase.timeoutCount := by rw [kept.timebase]; rfl
  have next := State.nextOffset_eq run rfl (State.planClaims_eq kept.modes _).symm rfl
  rw [kept.tick, kept.state, mode, count, kept.frameLength, kept.engine, kept.tags, kept.steps, kept.claims,
    settled.claims, List.nil_append] at next
  refine ⟨v, _, _, _, _, begun, rfl, rfl, rfl, rfl, ?_⟩
  rw [ticked, State.timebaseTick_walks (by rw [kept.state]; exact state), walks, next]

end Sys2Proof.Machine

/-! The timebase's actions and the notices it takes: SET_TIMEBASE, START, STOP and the clear notice. -/

namespace Sys2Proof.Machine

/-! ### SET_TIMEBASE (R64, R130) -/

theorem SyncMode.ofCode_eq (n : Nat) :
    SyncMode.ofCode n = if n ≤ 1 then some (if n = 0 then .free else .follow) else none := by
  match n with
  | 0 => rfl
  | 1 => rfl
  | _ + 2 => exact (if_neg (by omega)).symm

/-- The four settings where every parameter is in its range, and none otherwise. -/
theorem timebaseSettings_eq (p0 p1 p2 p3 : Word) : timebaseSettings p0 p1 p2 p3 =
    if p1.toNat ≤ 1 ∧ p0.toNat ∈ [1, 2, 4, 8, 16, 32, 64, 128] ∧ 1 ≤ p3.toNat ∧ p3.toNat ≤ 16 then
      some (p0.toNat, if p1.toNat = 0 then .free else .follow, p2.toNat, p3.toNat)
    else none := by
  unfold timebaseSettings
  rw [SyncMode.ofCode_eq]
  by_cases code : p1.toNat ≤ 1
  · simp only [code, if_true, true_and, List.contains_iff_mem]
    rfl
  · simp only [code, if_false, false_and]

theorem State.setTimebase_running (s : State) (h : s.timebase.state ≠ .stopped) : s.setTimebase = (s, .running) :=
  if_pos (by simpa [State.timebaseStopped] using h)

theorem State.setTimebase_config (s : State) (stopped : s.timebase.state = .stopped)
    (bad : timebaseSettings s.port.p0 s.port.p1 s.port.p2 s.port.p3 = none) : s.setTimebase = (s, .config) := by
  rw [State.setTimebase, if_neg (by simpa [State.timebaseStopped] using stopped), bad]

theorem State.setTimebase_taken (s : State) (stopped : s.timebase.state = .stopped)
    {settings : Nat × SyncMode × Nat × Nat}
    (good : timebaseSettings s.port.p0 s.port.p1 s.port.p2 s.port.p3 = some settings) :
    s.setTimebase = (s.applyTimebase settings, .ok) := by
  rw [State.setTimebase, if_neg (by simpa [State.timebaseStopped] using stopped), good]

/-- A changed prescaler restarts the tick clock and every fall age. -/
theorem State.applyTimebase_changed (s : State) (settings : Nat × SyncMode × Nat × Nat)
    (changed : settings.1 ≠ s.timebase.prescaler) : s.applyTimebase settings = { s with
      timebase := { s.timebase with
        prescaler := settings.1, mode := settings.2.1, timeout := settings.2.2.1, divider := settings.2.2.2,
        nextTick := s.environment.clk + settings.1 },
      lines := tabulate fun i => { s.lines[i] with age := 0 } } := by
  unfold State.applyTimebase
  rw [if_neg changed, State.prescalerNotice, mapTable_eq_tabulate]
  rfl

theorem State.applyTimebase_same (s : State) (settings : Nat × SyncMode × Nat × Nat)
    (same : settings.1 = s.timebase.prescaler) : s.applyTimebase settings = { s with
      timebase := { s.timebase with
        mode := settings.2.1, timeout := settings.2.2.1, divider := settings.2.2.2 } } := by
  unfold State.applyTimebase
  rw [if_pos same, same]

/-- Settles O24: the owner answers RUNNING outside STOPPED, and there by the four parameters. -/
theorem setTimebaseTakesFourSettings : Obligations.SetTimebaseTakesFourSettings := by
  intro s at_word
  have acts {t : State} {code : ResultCode} (h : s.setTimebase = (t, code)) :
      exec .setTimebase s = .next (t.acted 0x29#7 code) := State.action_of_owner at_word h
  have settings := timebaseSettings_eq s.port.p0 s.port.p1 s.port.p2 s.port.p3
  refine ⟨fun busy => acts (s.setTimebase_running busy), fun stopped => ⟨fun bad => ?_,
    fun prescaler mode least most => ?_⟩⟩
  · refine acts (s.setTimebase_config stopped (settings.trans (if_neg ?_)))
    rintro ⟨mode, prescaler, least, most⟩
    rcases bad with bad | bad | bad | bad
    · exact bad prescaler
    all_goals omega
  · have taken := s.setTimebase_taken stopped (settings.trans (if_pos ⟨mode, prescaler, least, most⟩))
    refine ⟨fun same => acts (taken.trans ?_), fun changed => acts (taken.trans ?_)⟩
    · rw [s.applyTimebase_same _ same]
    · rw [s.applyTimebase_changed _ changed]

/-! ### START (R68, R69) -/

theorem State.startTimebase_tripped (s : State) (tripped : s.trip.state = .tripped) :
    s.startTimebase = (s, .tripped) := if_pos (s.tripped_iff.2 tripped)

/-- ARMED, the timebase's state and the line block's indicator decide, and then the sync mode. -/
theorem State.startTimebase_armed (s : State) (armed : s.trip.state = .armed) : s.startTimebase =
    if s.timebase.state ≠ .stopped then (s, .state)
    else if s.tripIndicator then (s, .tripped)
    else if s.timebase.mode = .free then
      (State.beginFrameZero { s with timebase := { s.timebase with
        frameNumber := 0#16, tick := 0, dividerCount := 0, timeoutCount := 0, arrivalLatch := false } }, .ok)
    else
      ({ s with timebase := { s.timebase with
        state := .awaitSync, frameNumber := 0#16, tick := 0, dividerCount := 0, timeoutCount := 0,
        arrivalLatch := false } }, .ok) := by
  have untripped : ¬s.tripped = true := by rw [s.tripped_iff, armed]; decide
  have going : (!s.timebaseStopped) = true ↔ s.timebase.state ≠ .stopped := by simp [State.timebaseStopped]
  rw [State.startTimebase, if_neg untripped]
  refine if_congr going rfl (if_congr Iff.rfl rfl ?_)
  cases s.timebase.mode <;> rfl

/-- Settles O25: the owner's checks in order, and then frame 0 by the sync mode. -/
theorem startBeginsOrAwaitsFrameZero : Obligations.StartBeginsOrAwaitsFrameZero := by
  intro s at_word
  have acts {t : State} {code : ResultCode} (h : s.startTimebase = (t, code)) :
      exec .start s = .next (t.acted 0x2A#7 code) := State.action_of_owner at_word h
  refine ⟨fun tripped => acts (s.startTimebase_tripped tripped), fun armed => ?_⟩
  have answer := s.startTimebase_armed armed
  refine ⟨fun going => acts ?_, fun stopped indicator => acts ?_, fun stopped clear free => acts ?_,
    fun stopped clear follow => acts ?_⟩
  · rw [answer, if_pos going]
  · rw [answer, if_neg (not_not.2 stopped), if_pos indicator]
  · rw [answer, if_neg (not_not.2 stopped), if_neg (by rw [clear]; decide), if_pos free]
    rfl
  · rw [answer, if_neg (not_not.2 stopped), if_neg (by rw [clear]; decide), if_neg (by rw [follow]; decide)]

/-! ### STOP (R70, R72) -/

/-- Settles O27: one arm of the owner for each state; the stop notice is that of a boundary. -/
theorem stopEndsTheFrameOrStopsAtOnce : Obligations.StopEndsTheFrameOrStopsAtOnce := by
  intro s at_word
  have acts {t : State} {code : ResultCode} (h : s.stopTimebase = (t, code)) :
      exec .stop s = .next (t.acted 0x2B#7 code) := State.action_of_owner at_word h
  refine ⟨fun running => acts ?_, fun waiting no_claims => acts ?_, fun stopping => acts ?_, fun still => acts ?_⟩
  · rw [State.stopTimebase, running]
  · rw [← s.becomeStopped_eq no_claims]
    rcases waiting with state | state <;> rw [State.stopTimebase, state]
  · rw [State.stopTimebase, stopping]
  · rcases still with state | state <;> rw [State.stopTimebase, state]

/-! ### The clear notice (R85, R133, R184) -/

/-- Settles O40: each receiver takes the notice when it is under way. -/
theorem clearNoticeIsTakenByEachBlock : Obligations.ClearNoticeIsTakenByEachBlock := by
  refine ⟨fun s high => ?timebase, fun s high => ?lineBlock⟩
  case timebase =>
    have takes : exec .clearNoticeTimebase s = .next s.timebaseTakesClear := State.event_next high _
    refine ⟨fun absent => ?_, fun notice halted => ?_, fun notice elsewhere => ?_⟩
    · rw [takes, State.timebaseTakesClear, if_neg (by rw [absent]; decide)]
    · rw [takes, State.timebaseTakesClear, if_pos notice, if_pos halted]
    · rw [takes, State.timebaseTakesClear, if_pos notice, if_neg elsewhere]
  case lineBlock =>
    have takes : exec .clearNoticeLineBlock s = .next s.lineBlockTakesClear := State.event_next high _
    refine ⟨fun absent => ?_, fun notice => ?_⟩
    · rw [takes, State.lineBlockTakesClear, if_neg (by rw [absent]; decide)]
    · rw [takes, State.lineBlockTakesClear, if_pos notice, State.clearLines, mapTable_eq_tabulate]
      rfl

end Sys2Proof.Machine

/-! RST# low: every command but POWER_ON and the edges of the two pins is held. -/

namespace Sys2Proof.Machine

/-! ### Commands while RST# is low (R86, R134, R193) -/

section

variable {s : State}

theorem State.not_atWord_of_low (low : s.rstLow = true) (a : Address) : ¬s.atWord a :=
  fun at_word => Bool.false_ne_true (at_word.1.symm.trans low)

theorem State.writeWord_low (low : s.rstLow = true) (a : Address) (t : State) : s.writeWord a t = .next s :=
  State.writeWord_elsewhere (State.not_atWord_of_low low a) t

theorem State.action_low (low : s.rstLow = true) (a : Address) (owner : State → State × ResultCode) :
    s.action a owner = .next s := State.action_elsewhere (State.not_atWord_of_low low a) owner

theorem execRegisterWrite_low (low : s.rstLow = true) (word : Word) : execRegisterWrite word s = .next s := by
  unfold execRegisterWrite
  split
  · split
    · rfl
    · exact State.writeWord_low low _ _
  · exact State.event_reset low _
  all_goals rfl

theorem execRecordRead_low (low : s.rstLow = true) : execRecordRead s = .next s := by
  unfold execRecordRead
  split
  · exact State.event_reset low _
  all_goals rfl

/-- A command that is not a pin edge or power-on is a word, an action or an event, and none of them happens. -/
theorem exec_low (low : s.rstLow = true) (c : Instr)
    (held : c ∉ [Instr.powerOn, .rstAssert, .rstRelease, .csFall, .csRise]) : exec c s = .next s := by
  cases c with
  | powerOn | rstAssert | rstRelease | csFall | csRise => exact absurd (by decide) held
  | registerWrite word => exact execRegisterWrite_low low word
  | recordRead => exact execRecordRead_low low
  | iflagWrite | ienableWrite => exact State.writeWord_low low _ _
  | commandByte | copyCompletion | validationCompletion | tripNoticePlanStore | tick | syncInArrival
  | syncTimeout | engineClaims | deferralExpiry | clearNoticeTimebase | clearNoticeLineBlock | sampleRequest
  | conversionCompletion | calibrationConversion | tripNoticeConverter | faultSample | filterExpiry | tripSource =>
    exact State.event_reset low _
  | clearCounters => exact State.action_low (owner := fun t => (t.zeroCounters, .ok)) low _
  | softReset => exact State.action_low (owner := fun t => (t.softReset, .ok)) low _
  | insertEdge | removeEdge | clearStage | setFrameLength | copyActive | readStageEntry | readActiveEntry | commit
  | withdraw | setTimebase | start | stop | setLineConfig | setLineMode | setGroup | readLine | readGroup | setSlot
  | readSlot | sampleNow | setConverter | calibrate | cancelCal | setRing | setFault | trip | clearTrip
  | readTripRecord => exact State.action_low low _ _

end

/-! ### The pin of a line (R108) -/

theorem State.linePin_high {s : State} (high : s.rstLow = false) (i : Fin 16) :
    s.linePin i = s.lines[i].polarity.pin s.lines[i].level :=
  if_neg (by rw [high]; decide)

/-- Settles O3: every command is of a form that RST# low holds, and the pin is a table of level and polarity. -/
theorem heldWhileResetIsLow : Obligations.HeldWhileResetIsLow := by
  intro s low
  refine ⟨exec_low low, fun idle => ?_, ?_, fun i => ?_⟩
  · exact congrArg Host.Outcome.next ((if_pos idle).trans (if_pos low))
  · exact congrArg Host.Outcome.next (if_pos low)
  · refine (State.linePin_high rfl i).trans ?_
    show s.lines[i].polarity.pin s.lines[i].level = _
    cases s.lines[i].level <;> cases s.lines[i].polarity <;> rfl

end Sys2Proof.Machine

/-! The trip controller takes its sources. -/

namespace Sys2Proof.Machine

/-- Of several sources alike the oldest is taken, and all others stay under way (R181). -/
theorem State.controllerTakes_oldest {s : State} {before after : List SentSource} {sent : SentSource}
    (sources : s.transit.sources = before ++ sent :: after)
    (oldest : ∀ other ∈ before, other.source ≠ sent.source) :
    s.controllerTakes sent.source =
      State.takeSource { s with transit := { s.transit with sources := before ++ after } } sent := by
  have none_before : before.find? (fun other => other.source == sent.source) = none :=
    List.find?_eq_none.2 fun other mem => by simpa using oldest other mem
  have found : s.transit.sources.find? (fun other => other.source == sent.source) = some sent := by
    rw [sources, List.find?_append, none_before, Option.none_or]
    exact List.find?_cons_of_pos (beq_self_eq_true _)
  have taken_out : s.transit.sources.erase sent = before ++ after := by
    rw [sources, List.erase_append_right _ fun mem => oldest sent mem rfl, List.erase_cons_head]
  rw [State.controllerTakes, found]
  simp only [taken_out]

theorem State.controllerTakes_unsent {s : State} {source : TripSource}
    (unsent : ∀ sent ∈ s.transit.sources, sent.source ≠ source) : s.controllerTakes source = s := by
  rw [State.controllerTakes, List.find?_eq_none.2 fun sent mem => by simpa using unsent sent mem]

/-- Settles O51: the controller takes the oldest source of its kind, and TRIP its own, each by `takeSource`. -/
theorem sourcesTripOrAreRecorded : Obligations.SourcesTripOrAreRecorded := by
  refine ⟨fun s source high => ?_, fun s at_word => ?_⟩
  · have takes : exec (.tripSource source) s = .next (s.controllerTakes source) := State.event_next high _
    refine ⟨fun before after sent sources kind oldest => ?_, fun unsent => ?_⟩
    · subst kind
      rw [takes, State.controllerTakes_oldest sources oldest, State.takeSource_eq]
      rfl
    · rw [takes, State.controllerTakes_unsent unsent]
  · have takes : s.trips = (s.sourceTaken .software none, .ok) :=
      congrArg (·, ResultCode.ok) (s.takeSource_eq ⟨.software, s.transit.steps⟩)
    exact State.action_of_owner at_word takes

end Sys2Proof.Machine

/-! The trip notice at the sampling path: what it flushes, and the sample requests it takes first. -/

namespace Sys2Proof.Machine

/-! ### Requests and what is under way between blocks

Serving the queue and placing a request neither read nor change what is under way. -/

/-- The state with other messages under way. -/
def State.withTransit (s : State) (x : Transit) : State := { s with transit := x }

theorem State.serveQueue_withTransit (s : State) (x : Transit) :
    (s.withTransit x).serveQueue = s.serveQueue.withTransit x := by
  cases queue : s.sampler.queue with
  | nil => rw [State.serveQueue_empty s queue, State.serveQueue_empty (s.withTransit x) queue]; rfl
  | cons r rest => rw [State.serveQueue_takes s queue, State.serveQueue_takes (s.withTransit x) queue]; rfl

theorem State.placeRequest_withTransit (s : State) (slot : Fin 8) (origin : Origin) (x : Transit) :
    (s.withTransit x).placeRequest slot origin = (s.placeRequest slot origin).withTransit x := by
  have tests : (s.withTransit x).converter.state = s.converter.state := rfl
  by_cases idle : s.converter.state = .idle
  · simp only [State.placeRequest, tests, if_pos idle]
    exact State.serveQueue_withTransit { s with sampler := { s.sampler with
      queue := s.sampler.queue ++ [⟨slot, s.sampler.slots[slot].channel, origin, s.now⟩] } } x
  · simp only [State.placeRequest, tests, if_neg idle]
    rfl

/-- A request that arrives is placed or dropped whatever else is under way. -/
theorem State.takeTag_withTransit (s : State) (tag : SampleTag) (x : Transit) :
    (s.withTransit x).takeTag tag = (s.takeTag tag).withTransit x := by
  have tests : (s.withTransit x).queueFull = s.queueFull := rfl
  by_cases full : s.queueFull = true
  · simp only [State.takeTag, tests, if_pos full]
    rfl
  · simp only [State.takeTag, tests, if_neg full]
    exact s.placeRequest_withTransit _ _ x

theorem State.serveQueue_rstLow (s : State) : s.serveQueue.rstLow = s.rstLow := by
  cases queue : s.sampler.queue with
  | nil => rw [State.serveQueue_empty s queue]; rfl
  | cons r rest => rw [State.serveQueue_takes s queue]; rfl

theorem State.takeTag_rstLow (s : State) (tag : SampleTag) : (s.takeTag tag).rstLow = s.rstLow := by
  unfold State.takeTag
  split
  · rfl
  · unfold State.placeRequest
    dsimp only
    split
    · exact State.serveQueue_rstLow _
    · rfl

/-! ### The requests of one engine step (R104) -/

/-- Where the step has no request under way, none is taken. -/
theorem State.takeTagsOf_none {s : State} {step : Nat} (absent : ∀ tag ∈ s.transit.tags, tag.step ≠ step) :
    s.takeTagsOf step = s := by
  have none_taken : s.transit.tags.filter (fun tag => tag.step == step) = [] :=
    List.filter_eq_nil_iff.2 fun tag mem => by simpa using absent tag mem
  have all_stay : s.transit.tags.filter (fun tag => tag.step != step) = s.transit.tags :=
    List.filter_eq_self.2 fun tag mem => by simpa using absent tag mem
  rw [State.takeTagsOf, none_taken, all_stay]
  rfl

/-- The oldest request of the step is taken before the others of the step. -/
theorem State.takeTagsOf_oldest (s : State) {before after : List SampleTag} {tag : SampleTag}
    (tags : s.transit.tags = before ++ tag :: after) (oldest : ∀ other ∈ before, other.step ≠ tag.step) :
    s.takeTagsOf tag.step =
      ((s.takeTag tag).withTransit { s.transit with tags := before ++ after }).takeTagsOf tag.step := by
  have none_before : before.filter (fun other => other.step == tag.step) = [] :=
    List.filter_eq_nil_iff.2 fun other mem => by simpa using oldest other mem
  have taken : s.transit.tags.filter (fun other => other.step == tag.step)
      = tag :: (before ++ after).filter fun other => other.step == tag.step := by
    rw [tags, List.filter_append, List.filter_append, none_before, List.nil_append, List.nil_append]
    exact List.filter_cons_of_pos (p := fun other : SampleTag => other.step == tag.step) (beq_self_eq_true tag.step)
  have stay : s.transit.tags.filter (fun other => other.step != tag.step)
      = (before ++ after).filter fun other => other.step != tag.step := by
    rw [tags, List.filter_append, List.filter_append]
    exact congrArg _ (List.filter_cons_of_neg (by simp))
  rw [State.takeTagsOf, taken, stay, List.foldl_cons]
  exact congrArg (List.foldl State.takeTag · _) (s.takeTag_withTransit tag _)

/-! ### The notice (R155) -/

theorem State.samplingTakesNotice_none {s : State} (absent : s.transit.converterNotices = []) :
    s.samplingTakesNotice = s := by
  rw [State.samplingTakesNotice, absent]

/-- With no request to come first the notice empties the path at once. -/
theorem State.samplingTakesNotice_flushes {s : State} {cause : Option Nat} {rest : List (Option Nat)}
    (notices : s.transit.converterNotices = cause :: rest)
    (absent : ∀ tag ∈ s.transit.tags, cause ≠ some tag.step) :
    s.samplingTakesNotice = (s.withTransit { s.transit with converterNotices := rest }).flushSampling := by
  rw [State.samplingTakesNotice, notices]
  cases cause with
  | none => rfl
  | some step =>
    have none_taken : s.takeTagsOf step = s :=
      State.takeTagsOf_none fun tag mem same => absent tag mem (congrArg some same.symm)
    exact congrArg (fun t : State =>
      (t.withTransit { t.transit with converterNotices := rest }).flushSampling) none_taken

/-- The notice of an INTERLOCK trip finds the requests of its step one by one, the oldest first (R104). -/
theorem State.samplingTakesNotice_oldest {s : State} {rest : List (Option Nat)} {before after : List SampleTag}
    {tag : SampleTag} (notices : s.transit.converterNotices = some tag.step :: rest)
    (tags : s.transit.tags = before ++ tag :: after) (oldest : ∀ other ∈ before, other.step ≠ tag.step) :
    s.samplingTakesNotice =
      ((s.takeTag tag).withTransit { s.transit with tags := before ++ after }).samplingTakesNotice := by
  have same_notices : ((s.takeTag tag).withTransit
      { s.transit with tags := before ++ after }).transit.converterNotices = some tag.step :: rest := notices
  rw [State.samplingTakesNotice, notices, State.samplingTakesNotice, same_notices]
  exact congrArg (fun t : State => (t.withTransit { t.transit with converterNotices := rest }).flushSampling)
    (s.takeTagsOf_oldest tags oldest)

/-- A request that alone is under way is taken and nothing is left under way. -/
theorem State.samplerTakesTag_only (s : State) (tag : SampleTag) :
    (s.withTransit { s.transit with tags := [tag] }).samplerTakesTag =
      (s.takeTag tag).withTransit { s.transit with tags := [] } :=
  s.takeTag_withTransit tag { s.transit with tags := [] }

/-- Settles O47: without a request of its step the notice flushes the path, and otherwise the oldest such request is
taken before it, as SAMPLE_REQUEST takes it. -/
theorem tripNoticeEmptiesTheSamplingPath : Obligations.TripNoticeEmptiesTheSamplingPath := by
  intro s high
  have takes {t : State} (kept : t.rstLow = false) : exec .tripNoticeConverter t = .next t.samplingTakesNotice :=
    State.event_next kept _
  refine ⟨fun absent => ?_, fun cause rest notices absent => ?_, fun rest before after tag notices tags oldest => ?_⟩
  · rw [takes high, State.samplingTakesNotice_none absent]
  · rw [takes high, State.samplingTakesNotice_flushes notices absent]
    rfl
  · have kept : (s.takeTag tag).rstLow = false := (s.takeTag_rstLow tag).trans high
    refine ⟨(s.takeTag tag).withTransit { s.transit with tags := [] }, ?_, ?_⟩
    · rw [← s.samplerTakesTag_only tag]
      exact State.event_next (s := s.withTransit { s.transit with tags := [tag] }) high _
    · rw [takes high, State.samplingTakesNotice_oldest notices tags oldest]
      exact (takes (t := (s.takeTag tag).withTransit { s.transit with tags := before ++ after }) kept).symm

end Sys2Proof.Machine

/-! The frame start: the run of entries at offset 0 and the start claims before it. -/

namespace Sys2Proof.Machine

/-! ### The offset event (R90, R91, R98) -/

/-- From the first entry of a lawful list on, the run at offset 0 is every entry there. -/
theorem Engine.run_first {p : Plan} (lawful : p.Lawful) (e : Engine) (at_start : e.cursor = 0) :
    e.run p.entries 0 = p.entries.filter fun x => x.offset = 0 := by
  rw [Engine.run, at_start, List.drop_zero]
  exact takeWhile_offset_eq_filter lawful.sorted_offsets fun _ _ => Nat.zero_le _

/-! ### The start claims (R96, R97) -/

theorem State.startTarget_eq {s : State} {table : StartTable} (present : s.governingPlan.table = some table)
    (i : Fin 16) : s.startTarget i = (table.level s.engine.parity i).target s.lines[i].restLevel := by
  rw [State.startTarget, State.startLevel, present]

/-- The start claims read the lines' modes and targets alone. -/
theorem State.startClaims_eq {s : State} {target : Fin 16 → Level} (targets : ∀ i, s.startTarget i = target i) :
    s.startClaims =
      ((allLines.filter fun i => s.lines[i].mode = .scheduled ∧ target i ≠ .active).map fun i =>
          .startFall i (target i))
        ++ ((allLines.filter fun i => s.lines[i].mode = .scheduled ∧ target i = .active).map .startRise) := by
  obtain rfl : s.startTarget = target := funext targets
  have falls : (fun i => s.scheduled i && s.startTarget i != .active)
      = fun i => decide (s.lines[i].mode = .scheduled ∧ s.startTarget i ≠ .active) := by
    funext i
    rw [Bool.decide_and, decide_not]
    rfl
  have rises : (fun i => s.scheduled i && s.startTarget i == .active)
      = fun i => decide (s.lines[i].mode = .scheduled ∧ s.startTarget i = .active) := by
    funext i
    rw [Bool.decide_and]
    rfl
  rw [State.startClaims, falls, rises]

/-! ### The frame start (R95, R98) -/

/-- The engine at the first entry of the active plan, in the frame's parity, before it hands anything on (R95). -/
def State.frameEntered (s : State) (frame : Word) : State :=
  { s with engine := ⟨.walking, s.plan.selector, parityOf frame, frame, 0⟩ }

/-- The frame start is one engine step: the start claims, and then the due entries at offset 0. -/
theorem State.frameStart_eq {s : State} {frame : Word} {first fired : List Entry} {claims : List Claim}
    (run : first = (s.frameEntered frame).engine.run s.plan.active.entries 0)
    (due : fired = first.filter fun e => e.due (parityOf frame))
    (claimed : claims = (s.frameEntered frame).startClaims ++ (s.frameEntered frame).planClaims fired) :
    s.frameStart frame = { s with
      engine := ⟨.walking, s.plan.selector, parityOf frame, frame, first.length⟩,
      transit := { s.transit with
        claims := if claims = [] then s.transit.claims else s.transit.claims ++ [claims],
        tags := s.transit.tags ++ fired.filterMap fun e =>
          e.tag.map fun slot => ⟨slot, frame, 0, s.transit.steps + 1⟩,
        steps := s.transit.steps + 1 } } := by
  have handed : (if claims.isEmpty then s.transit.claims else s.transit.claims ++ [claims])
      = if claims = [] then s.transit.claims else s.transit.claims ++ [claims] :=
    if_congr List.isEmpty_iff rfl rfl
  have cursor : first.length = 0 + first.length := (Nat.zero_add _).symm
  rw [← handed, cursor]
  subst run due claimed
  rfl

/-- Settles O26: the engine enters the frame at the active plan's first entry, and its table gives the targets. -/
theorem frameStartHandsOnStartClaims : Obligations.FrameStartHandsOnStartClaims := by
  intro s frame table lawful present
  have run := (s.frameEntered frame).engine.run_first lawful rfl
  have claimed := congrArg₂ (· ++ ·)
    (State.startClaims_eq (State.startTarget_eq (s := s.frameEntered frame) present))
    (State.planClaims_eq (s := s) (v := s.frameEntered frame) (fun _ => rfl)
      ((s.plan.active.entries.filter fun e => e.offset = 0).filter fun e => e.due (parityOf frame)))
  rw [← List.append_assoc] at claimed
  exact ⟨fun i => (table.level (parityOf frame) i).target s.lines[i].restLevel, _, _, _, fun _ => rfl, rfl, rfl, rfl,
    State.frameStart_eq run.symm rfl claimed.symm⟩

end Sys2Proof.Machine

/-! The line block's moves at the grain that its laws need: every operation of the guard, of the engine and of the timebase
is a sequence of `GuardMove`s, each of which rises a member only when its rise is clear. -/

namespace Sys2Proof.Machine

/-! ### Tables read at a numbered entry -/

theorem set_fin {n : Nat} {α : Type} (v : Vector α n) (i j : Fin n) (a : α) :
    (v.set i a)[j] = if i = j then a else v[j] := by
  simp [Vector.getElem_set, Fin.ext_iff]

theorem mapTable_fin {n : Nat} {α β : Type} (v : Vector α n) (f : α → β) (i : Fin n) : (mapTable v f)[i] = f v[i] :=
  mapTable_getElem v f i i.isLt

theorem tabulate_fin {n : Nat} {α : Type} (f : Fin n → α) (i : Fin n) : (tabulate f)[i] = f i :=
  tabulate_getElem f i i.isLt

/-! ### The moves -/

/-- What a line may do with no rise judged: it keeps its group, and a member does not become ACTIVE; its fall age stays
in its range and restarts only at a fall (R109, R122). `lawful` says that the groups were safe to begin with. -/
structure Line.Settles (lawful : Prop) (l l' : Line) : Prop where
  group  : l'.group = l.group
  level  : lawful → l.group ≠ none → l'.level = .active → l.level = .active
  levels : lawful → l.group ≠ none → l.restLevel = .inactive ∧ l.safeLevel ≠ .active →
    l'.restLevel = .inactive ∧ l'.safeLevel ≠ .active
  age    : l.age ≤ 1024 → l'.age ≤ 1024 ∧ (l.level ≠ .active → l.age ≤ l'.age)

/-- What a group may do while no rise joins its queue: entries leave, and the counters stay in their range (R127, R202). -/
structure InterlockGroup.Shrinks (r r' : InterlockGroup) : Prop where
  gap       : r'.gap = r.gap
  policy    : r'.policy = r.policy
  limit     : r'.limit = r.limit
  queue     : r'.queue.Sublist r.queue
  deferred  : r.deferred ≤ 255 → r'.deferred ≤ 255
  abandoned : r.abandoned ≤ 255 → r'.abandoned ≤ 255

/-- One move of the line block, from the lines, groups and claims of `s` to those of `t`; what else the two states hold is
left to the caller. -/
inductive GuardMove (lawful : Prop) (s t : State) : Prop
  /-- Claims are handed on or taken. -/
  | handed (lines : t.lines = s.lines) (groups : t.groups = s.groups) (claims : s.ClaimsSent → t.ClaimsSent)
  /-- Lines move with no rise judged. -/
  | settled (lines : ∀ i : Fin 16, Line.Settles lawful s.lines[i] t.lines[i]) (groups : t.groups = s.groups)
      (claims : t.transit.claims = s.transit.claims)
  /-- Entries leave the queues. -/
  | shrunk (lines : t.lines = s.lines) (groups : ∀ g : Fin 6, s.groups[g].Shrinks t.groups[g])
      (claims : t.transit.claims = s.transit.claims)
  /-- Every wait advances, where none has reached its limit (R125). -/
  | waited (below : ∀ g : Fin 6, ∀ w ∈ s.groups[g].queue, w.wait < s.groups[g].limit) (lines : t.lines = s.lines)
      (groups : t.groups = mapTable s.groups InterlockGroup.aged) (claims : t.transit.claims = s.transit.claims)
  /-- A member that is not ACTIVE and not waiting joins the tail (R123). -/
  | deferred (g : Fin 6) (x : Fin 16) (member : s.lines[x].group = some g) (down : s.lines[x].level ≠ .active)
      (absent : ∀ w ∈ s.groups[g].queue, w.line ≠ x) (policy : s.groups[g].policy = .defer) (lines : t.lines = s.lines)
      (groups : t.groups = s.groups.set g { s.groups[g] with
        queue := s.groups[g].queue ++ [⟨x, 0⟩], deferred := bump8 s.groups[g].deferred })
      (claims : t.transit.claims = s.transit.claims)
  /-- A line that does not wait rises clear (R122, R123). -/
  | raised (x : Fin 16) (clear : s.RiseClear x)
      (absent : ∀ g : Fin 6, s.lines[x].group = some g → ∀ w ∈ s.groups[g].queue, w.line ≠ x)
      (lines : t.lines = s.lines.set x { s.lines[x] with level := .active }) (groups : t.groups = s.groups)
      (claims : t.transit.claims = s.transit.claims)
  /-- The head of a queue rises clear and leaves (R125). -/
  | granted (g : Fin 6) (w : Waiting) (rest : List Waiting) (queue : s.groups[g].queue = w :: rest)
      (clear : s.RiseClear w.line)
      (lines : t.lines = s.lines.set w.line { s.lines[w.line] with level := .active })
      (groups : t.groups = s.groups.set g { s.groups[g] with queue := rest })
      (claims : t.transit.claims = s.transit.claims)

/-- A sequence of moves. -/
abbrev GuardMoves (lawful : Prop) : State → State → Prop := Relation.ReflTransGen (GuardMove lawful)

theorem Line.Settles.refl (lawful : Prop) (l : Line) : Line.Settles lawful l l :=
  ⟨rfl, fun _ _ h => h, fun _ _ h => h, fun h => ⟨h, fun _ => Nat.le_refl _⟩⟩

theorem InterlockGroup.Shrinks.refl (r : InterlockGroup) : r.Shrinks r :=
  ⟨rfl, rfl, rfl, .refl _, id, id⟩

/-! ### Groups stay safe (R122) -/

theorem State.ClaimsSent.of_claims {s t : State} (h : s.ClaimsSent) (claims : t.transit.claims = s.transit.claims) :
    t.ClaimsSent := by unfold State.ClaimsSent; rw [claims]; exact h

/-- A clear rise brings no second ACTIVE line into a group. -/
theorem State.GroupsSafe.raise {s t : State} (hs : s.GroupsSafe) {x : Fin 16} (clear : s.RiseClear x)
    (lines : t.lines = s.lines.set x { s.lines[x] with level := .active })
    (claims : t.transit.claims = s.transit.claims) : t.GroupsSafe := by
  have self : t.lines[x] = { s.lines[x] with level := .active } := by rw [lines, set_fin, if_pos rfl]
  have other {i : Fin 16} (h : i ≠ x) : t.lines[i] = s.lines[i] := by rw [lines, set_fin, if_neg h.symm]
  have alone {i : Fin 16} (h : i ≠ x) (member : s.lines[x].group ≠ none) (same : s.lines[x].group = s.lines[i].group) :
      s.lines[i].level ≠ .active := by
    obtain ⟨g, hg⟩ := Option.ne_none_iff_exists'.1 member
    exact (clear g i hg h (same ▸ hg)).1
  refine ⟨fun i j ne member same ⟨hi, hj⟩ => ?_, fun i member => ?_, hs.claims.of_claims claims⟩
  · by_cases ix : i = x
    · subst ix
      rw [self] at member same
      rw [other ne.symm] at same hj
      exact alone ne.symm member same hj
    · rw [other ix] at member same hi
      by_cases jx : j = x
      · subst jx
        rw [self] at same
        exact alone ix (same ▸ member) same.symm hi
      · rw [other jx] at same hj
        exact hs.apart i j ne member same ⟨hi, hj⟩
  · by_cases ix : i = x
    · subst ix
      rw [self] at member ⊢
      exact hs.levels i member
    · rw [other ix] at member ⊢
      exact hs.levels i member

theorem State.GroupsSafe.of_lines {s t : State} (hs : s.GroupsSafe) (lines : t.lines = s.lines) (claims : t.ClaimsSent) :
    t.GroupsSafe :=
  ⟨by rw [lines]; exact hs.apart, by rw [lines]; exact hs.levels, claims⟩

theorem GuardMove.groupsSafe {lawful : Prop} {s t : State} (h : GuardMove lawful s t) (hl : lawful)
    (hs : s.GroupsSafe) : t.GroupsSafe := by
  cases h with
  | handed lines _ claims => exact hs.of_lines lines (claims hs.claims)
  | settled lines _ claims =>
    refine ⟨fun i j ne member same ⟨hi, hj⟩ => ?_, fun i member => ?_, hs.claims.of_claims claims⟩
    · rw [(lines i).group] at member same
      rw [(lines j).group] at same
      exact hs.apart i j ne member same ⟨(lines i).level hl member hi, (lines j).level hl (same ▸ member) hj⟩
    · rw [(lines i).group] at member
      exact (lines i).levels hl member (hs.levels i member)
  | shrunk lines _ claims => exact hs.of_lines lines (hs.claims.of_claims claims)
  | waited _ lines _ claims => exact hs.of_lines lines (hs.claims.of_claims claims)
  | deferred _ _ _ _ _ _ lines _ claims => exact hs.of_lines lines (hs.claims.of_claims claims)
  | raised _ clear _ lines _ claims => exact hs.raise clear lines claims
  | granted _ _ _ _ clear lines _ claims => exact hs.raise clear lines claims

theorem GuardMoves.groupsSafe {lawful : Prop} {s t : State} (h : GuardMoves lawful s t) (hl : lawful)
    (hs : s.GroupsSafe) : t.GroupsSafe := by
  induction h with
  | refl => exact hs
  | tail _ move ih => exact move.groupsSafe hl ih

/-! ### Operations as moves -/

/-- `t` is reached from `s` by moves; where `lawful` is claimed, the groups of `s` are safe. -/
def Guarded (lawful : Prop) (s t : State) : Prop := (lawful → s.GroupsSafe) → GuardMoves lawful s t

section

variable {lawful : Prop}

theorem Guarded.refl (s : State) : Guarded lawful s s := fun _ => .refl

theorem Guarded.trans {s t u : State} (h : Guarded lawful s t) (k : Guarded lawful t u) : Guarded lawful s u :=
  fun hs => (h hs).trans (k fun hl => (h hs).groupsSafe hl (hs hl))

theorem Guarded.foldl {α : Type} (f : State → α → State) (hf : ∀ s a, Guarded lawful s (f s a)) (l : List α)
    (s : State) : Guarded lawful s (l.foldl f s) := by
  induction l generalizing s with
  | nil => exact .refl s
  | cons a rest ih => exact (hf s a).trans (ih _)

/-- An operation that leaves the lines, the groups and the claims. -/
theorem Guarded.of_same {s t : State} (lines : t.lines = s.lines) (groups : t.groups = s.groups)
    (claims : t.transit.claims = s.transit.claims) : Guarded lawful s t :=
  fun _ => .single (.handed lines groups fun h => h.of_claims claims)

/-- Moves may begin at any state with the lines, groups and claims of `s`. -/
theorem Guarded.from {s t u : State} (h : Guarded lawful t u) (lines : t.lines = s.lines)
    (groups : t.groups = s.groups) (claims : t.transit.claims = s.transit.claims) : Guarded lawful s u :=
  (Guarded.of_same lines groups claims).trans h

/-- Moves may end at any state with the lines, groups and claims of `t`. -/
theorem Guarded.upto {s t u : State} (h : Guarded lawful s t) (lines : u.lines = t.lines)
    (groups : u.groups = t.groups) (claims : u.transit.claims = t.transit.claims) : Guarded lawful s u :=
  h.trans (.of_same lines groups claims)

theorem State.setFlag_guarded (s : State) (f : Flag) : Guarded lawful s (s.setFlag f) := .of_same rfl rfl rfl

/-- Lines move with no rise judged, nothing else does. -/
theorem Guarded.of_lines {s t : State}
    (lines : (lawful → s.GroupsSafe) → ∀ i : Fin 16, Line.Settles lawful s.lines[i] t.lines[i])
    (groups : t.groups = s.groups) (claims : t.transit.claims = s.transit.claims) : Guarded lawful s t :=
  fun hs => .single (.settled (lines hs) groups claims)

theorem Guarded.of_groups {s t : State} (lines : t.lines = s.lines)
    (groups : ∀ g : Fin 6, s.groups[g].Shrinks t.groups[g]) (claims : t.transit.claims = s.transit.claims) :
    Guarded lawful s t :=
  fun _ => .single (.shrunk lines groups claims)

/-- One group's record changes as a group may. -/
theorem State.setGroupRecord_guarded (s : State) (g : Fin 6) (r : InterlockGroup) (h : s.groups[g].Shrinks r) :
    Guarded lawful s (s.setGroupRecord g r) := by
  refine .of_groups rfl (fun k => ?_) rfl
  rw [State.setGroupRecord, set_fin]
  split
  · rename_i e; subst e; exact h
  · exact .refl _

theorem bump8_le (n : Nat) : bump8 n ≤ 255 := Nat.min_le_right _ _

/-! ### Levels (R109) -/

/-- A line at a new level settles, where a member's new level is not ACTIVE. -/
theorem Line.settles_atLevel (l : Line) (level : Level)
    (h : lawful → l.group ≠ none → level ≠ .active) : Line.Settles lawful l (l.atLevel level) where
  group := rfl
  level := fun hl member k => absurd k (h hl member)
  levels := fun _ _ k => k
  age := fun bound => by
    rw [Line.atLevel_age]
    split
    · rename_i fell; exact ⟨Nat.zero_le _, fun k => absurd fell.1 k⟩
    · exact ⟨bound, fun _ => Nat.le_refl _⟩

/-- One line settles and the others stay. -/
theorem State.setLine_guarded (s : State) (x : Fin 16) (l : Line)
    (h : (lawful → s.GroupsSafe) → Line.Settles lawful s.lines[x] l) : Guarded lawful s (s.setLine x l) := by
  refine .of_lines (fun hs i => ?_) rfl rfl
  rw [State.setLine, set_fin]
  split
  · rename_i e; subst e; exact h hs
  · exact .refl _ _

theorem State.examineHead_guarded (s : State) (g : Fin 6) : Guarded lawful s (s.examineHead g) := by
  cases hq : s.groups[g].queue with
  | nil => rw [s.examineHead_nil g hq]; exact .refl s
  | cons w rest =>
    by_cases clear : s.RiseClear w.line
    · rw [s.examineHead_rises g hq clear]
      exact fun _ => .single (.granted g w rest hq clear rfl rfl rfl)
    · rw [s.examineHead_stays g hq clear]; exact .refl s

theorem State.examineFor_guarded (s : State) (x : Fin 16) : Guarded lawful s (s.examineFor x) := by
  unfold State.examineFor
  split
  · exact .refl s
  · exact s.examineHead_guarded _

/-- A line takes a level that, for a member, is not ACTIVE. -/
theorem State.moveLine_guarded (s : State) (x : Fin 16) (level : Level)
    (h : lawful → s.GroupsSafe → s.lines[x].group ≠ none → level ≠ .active) :
    Guarded lawful s (s.moveLine x level) := by
  have set : Guarded lawful s (s.setLine x (s.lines[x].atLevel level)) :=
    s.setLine_guarded x _ fun hs => Line.settles_atLevel _ _ fun hl => h hl (hs hl)
  unfold State.moveLine
  split
  · exact set.trans (State.examineFor_guarded _ _)
  · exact set

/-- A line that does not wait and whose rise is clear becomes ACTIVE. -/
theorem State.moveLine_active_guarded (s : State) (x : Fin 16) (clear : s.RiseClear x)
    (absent : ∀ g : Fin 6, s.lines[x].group = some g → ∀ w ∈ s.groups[g].queue, w.line ≠ x) :
    Guarded lawful s (s.moveLine x .active) := by
  rw [s.moveLine_stays_or_rises x .active fun k => k.2 rfl]
  exact fun _ => .single (.raised x clear absent rfl rfl rfl)

/-! ### Waiting rises (R123, R125 to R127) -/

/-- Entries leave a queue and the guard examines the head. -/
theorem State.dequeue_guarded (s : State) (g : Fin 6) {queue : List Waiting} (h : queue.Sublist s.groups[g].queue) :
    Guarded lawful s ((s.setGroupRecord g { s.groups[g] with queue := queue }).examineHead g) :=
  (s.setGroupRecord_guarded g { s.groups[g] with queue := queue } ⟨rfl, rfl, rfl, h, id, id⟩).trans
    (State.examineHead_guarded _ _)

theorem State.removeWaiting_guarded (s : State) (x : Fin 16) : Guarded lawful s (s.removeWaiting x) := by
  unfold State.removeWaiting
  split
  · exact .refl s
  · split
    · exact s.dequeue_guarded _ List.filter_sublist
    · exact .refl s

theorem State.deferRise_guarded (s : State) (g : Fin 6) (x : Fin 16) (member : s.lines[x].group = some g)
    (down : s.lines[x].level ≠ .active) (absent : ∀ w ∈ s.groups[g].queue, w.line ≠ x)
    (policy : s.groups[g].policy = .defer) : Guarded lawful s (s.deferRise g x) := by
  unfold State.deferRise
  simp only
  split
  · refine Guarded.trans (s.setGroupRecord_guarded g _ ?_) (State.setFlag_guarded _ .defer)
    exact ⟨rfl, rfl, rfl, .refl _, fun _ => bump8_le _, fun _ => bump8_le _⟩
  · exact fun _ => .single (.deferred g x member down absent policy rfl rfl rfl)

theorem State.judgeRise_guarded (s : State) (x : Fin 16) : Guarded lawful s (s.judgeRise x) := by
  unfold State.judgeRise
  split
  · exact .refl s
  · rename_i down
    split
    · rename_i ungrouped
      exact s.moveLine_guarded x _ fun _ _ member => absurd ungrouped member
    · rename_i g member
      split
      · exact .refl s
      · rename_i waiting
        have absent : ∀ w ∈ s.groups[g].queue, w.line ≠ x := fun w hw e =>
          waiting ((s.isWaiting_iff x).2 ⟨g, member, w, hw, e⟩)
        split
        · rename_i judged
          have clear := (s.clear_iff_riseClear x).1 (Bool.and_eq_true _ _ ▸ judged).2
          refine s.moveLine_active_guarded x clear fun k hk => ?_
          obtain rfl : g = k := Option.some.inj (member.symm.trans hk)
          exact absent
        · split
          · rename_i policy; exact s.deferRise_guarded g x member down absent policy
          · exact .of_same rfl rfl rfl

theorem withoutExpired_sublist {limit : Nat} {queue rest : List Waiting} (h : withoutExpired limit queue = some rest) :
    rest.Sublist queue := by
  induction queue generalizing rest with
  | nil => cases h
  | cons w queue ih =>
    unfold withoutExpired at h
    split at h
    · cases h; exact List.sublist_cons_self _ _
    · obtain ⟨r, hr, rfl⟩ := Option.map_eq_some_iff.1 h
      exact (ih hr).cons_cons w

theorem State.expireOne_guarded (s : State) (g : Fin 6) : Guarded lawful s (s.expireOne g) := by
  unfold State.expireOne
  split
  · exact .refl s
  · rename_i queue expired
    have leaves := s.setGroupRecord_guarded (lawful := lawful) g
      { s.groups[g] with queue := queue, abandoned := bump8 s.groups[g].abandoned }
      ⟨rfl, rfl, rfl, withoutExpired_sublist expired, id, fun _ => bump8_le _⟩
    exact (leaves.trans (State.setFlag_guarded _ .defer)).trans (State.examineHead_guarded _ g)

theorem State.headsExamined_guarded (s : State) (which : Fin 6 → Bool) : Guarded lawful s (s.headsExamined which) :=
  .foldl _ (fun t g => by split; exacts [t.examineHead_guarded g, .refl t]) _ _

theorem State.examineOwed_guarded (s : State) : Guarded lawful s s.examineOwed :=
  Guarded.trans (t := { s with transit := { s.transit with headOwed := 0#6 } }) (.of_same rfl rfl rfl)
    (State.headsExamined_guarded _ _)

theorem State.examineAtTick_guarded (s : State) : Guarded lawful s s.examineAtTick :=
  Guarded.trans (t := { s with transit := { s.transit with headOwed := s.owedAtTick } }) (.of_same rfl rfl rfl)
    (State.headsExamined_guarded _ _)

/-! ### Claims (R111) -/

theorem State.takeClaim_guarded (s : State) (c : Claim) (sent : lawful → c.Sent) :
    Guarded lawful s (s.takeClaim c) := by
  unfold State.takeClaim
  split
  · exact .refl s
  · cases c with
    | fall x => exact (s.removeWaiting_guarded x).trans (State.moveLine_guarded _ _ _ fun _ _ _ => by decide)
    | startFall x target =>
      exact (s.removeWaiting_guarded x).trans (State.moveLine_guarded _ _ _ fun hl _ _ => sent hl)
    | rise x => exact s.judgeRise_guarded x
    | startRise x => exact (s.removeWaiting_guarded x).trans (State.judgeRise_guarded _ x)

theorem State.takeClaimStep_guarded (s : State) (claims : List Claim) (sent : lawful → ∀ c ∈ claims, c.Sent) :
    Guarded lawful s (s.takeClaimStep claims) := by
  unfold State.takeClaimStep
  induction claims generalizing s with
  | nil => exact .refl s
  | cons c rest ih =>
    exact (s.takeClaim_guarded c fun hl => sent hl c (by simp)).trans
      (ih _ fun hl d hd => sent hl d (by simp [hd]))

/-- Claims under way that the engine can hand on leave the line block's transit. -/
theorem State.claimsLeft_guarded (s : State) {rest : List (List Claim)} (h : rest ⊆ s.transit.claims) :
    Guarded lawful s { s with transit := { s.transit with claims := rest } } :=
  fun _ => .single (.handed rfl rfl fun sent step hstep => sent step (h hstep))

theorem State.takeAllClaims_guarded (s : State) : Guarded lawful s s.takeAllClaims := by
  intro hs
  have sent : lawful → ∀ step ∈ s.transit.claims, ∀ c ∈ step, c.Sent := fun hl => (hs hl).claims
  refine Guarded.trans (s.claimsLeft_guarded (List.nil_subset _)) ?_ hs
  unfold State.takeAllClaims
  generalize ({ s with transit := { s.transit with claims := [] } } : State) = t
  generalize s.transit.claims = steps at sent
  clear hs
  induction steps generalizing t with
  | nil => exact .refl t
  | cons step rest ih =>
    exact (t.takeClaimStep_guarded step fun hl => sent hl step (by simp)).trans
      (ih _ fun hl u hu => sent hl u (by simp [hu]))

/-- ENGINE_CLAIMS. -/
theorem State.lineBlockTakesClaims_guarded (s : State) : Guarded lawful s s.lineBlockTakesClaims := by
  intro hs
  unfold State.lineBlockTakesClaims
  split
  · exact .refl
  · rename_i step rest claims
    refine Guarded.trans (s.claimsLeft_guarded (rest := rest) (by rw [claims]; exact List.subset_cons_self _ _))
      (State.takeClaimStep_guarded _ step fun hl => ?_) hs
    exact (hs hl).claims step (by rw [claims]; simp)

/-! ### What the engine hands on is sent (R91, R97) -/

theorem State.planClaims_sent (s : State) (fired : List Entry) : ∀ c ∈ s.planClaims fired, c.Sent := by
  intro c hc
  rcases List.mem_append.1 hc with hc | hc <;> obtain ⟨e, _, rfl⟩ := List.mem_map.1 hc <;> trivial

theorem State.startClaims_sent (s : State) : ∀ c ∈ s.startClaims, c.Sent := by
  intro c hc
  rcases List.mem_append.1 hc with hc | hc <;> obtain ⟨i, hi, rfl⟩ := List.mem_map.1 hc
  · have asked := (List.mem_filter.1 hi).2
    rw [Bool.and_eq_true, bne_iff_ne] at asked
    exact asked.2
  · trivial

theorem State.offsetEventAfter_guarded (s : State) (before : List Claim) (o : Nat) (sent : ∀ c ∈ before, c.Sent) :
    Guarded lawful s (s.offsetEventAfter before o) := by
  refine fun _ => .single (.handed rfl rfl fun under_way => ?_)
  have handed (claims : List Claim) (h : ∀ c ∈ claims, c.Sent) :
      ∀ step ∈ if claims.isEmpty then s.transit.claims else s.transit.claims ++ [claims], ∀ c ∈ step, c.Sent := by
    intro step hstep
    split at hstep
    · exact under_way step hstep
    · rcases List.mem_append.1 hstep with hstep | hstep
      · exact under_way step hstep
      · rw [List.mem_singleton.1 hstep]; exact h
  refine handed _ fun c hc => ?_
  rcases List.mem_append.1 hc with hc | hc
  · exact sent c hc
  · exact State.planClaims_sent _ _ c hc

theorem State.frameStart_guarded (s : State) (frame : Word) : Guarded lawful s (s.frameStart frame) :=
  Guarded.trans (t := s.frameEntered frame) (.of_same rfl rfl rfl)
    (State.offsetEventAfter_guarded _ _ 0 (State.startClaims_sent _))

/-! ### Boundaries and ticks (Chapter 4) -/

theorem State.setFlagIf_guarded (s : State) (c : Bool) (f : Flag) : Guarded lawful s (s.setFlagIf c f) := by
  unfold State.setFlagIf; split <;> exact .of_same rfl rfl rfl

/-- Every queue is emptied and no counter moves (R127). -/
theorem State.emptyQueues_guarded (s : State) : Guarded lawful s s.emptyQueues := by
  refine .of_groups rfl (fun g => ?_) rfl
  rw [State.emptyQueues_groups, mapTable_fin]
  exact ⟨rfl, rfl, rfl, List.nil_sublist _, id, id⟩

/-- Every line moves as `f` has it, with no rise judged. -/
theorem State.mapLines_guarded (s : State) (f : Line → Line)
    (h : ∀ l : Line, (lawful → l.group ≠ none → l.restLevel = .inactive ∧ l.safeLevel ≠ .active) →
      Line.Settles lawful l (f l)) : Guarded lawful s { s with lines := mapTable s.lines f } := by
  refine .of_lines (fun hs i => ?_) rfl rfl
  rw [mapTable_fin]
  exact h _ fun hl => (hs hl).levels i

theorem Line.stopped_settles (l : Line)
    (levels : lawful → l.group ≠ none → l.restLevel = .inactive ∧ l.safeLevel ≠ .active) :
    Line.Settles lawful l l.stopped := by
  unfold Line.stopped
  split
  · exact Line.settles_atLevel l _ fun hl member => by rw [(levels hl member).1]; decide
  · exact .refl _ l

theorem State.stopLines_guarded (s : State) : Guarded lawful s s.stopLines :=
  (s.takeAllClaims_guarded.trans (State.emptyQueues_guarded _)).trans
    (State.mapLines_guarded _ Line.stopped Line.stopped_settles)

theorem State.becomeStopped_guarded (s : State) : Guarded lawful s s.becomeStopped := by
  have stops := State.stopLines_guarded (lawful := lawful) { s with
    timebase := { s.timebase with state := .stopped }, transit := { s.transit with syncExpiry := false } }
  exact (stops.from (s := s) rfl rfl rfl).upto rfl rfl rfl

/-- The end of a frame changes no line and no group (R75). -/
theorem State.boundary_guarded (s : State) : Guarded lawful s s.boundary := by
  have ended (t : State) (h : Guarded lawful s.frameEnded t) : Guarded lawful s t := h.from rfl rfl rfl
  unfold State.boundary
  simp only
  rw [s.frameEnded_eq]
  split
  · exact ended _ (State.becomeStopped_guarded _)
  · have next := State.frameStart_guarded (lawful := lawful) { s.frameEnded with
      timebase := { s.frameEnded.timebase with state := .running, timeoutCount := 0 },
      transit := { s.frameEnded.transit with syncExpiry := false } } s.frameEnded.timebase.frameNumber
    exact ended _ (next.from rfl rfl rfl)

theorem State.countSkipped_guarded (s : State) : Guarded lawful s s.countSkipped :=
  (State.setFlagIf_guarded _ _ _).from rfl rfl rfl

theorem State.boundaryByArrival_guarded (s : State) : Guarded lawful s s.boundaryByArrival :=
  s.countSkipped_guarded.trans (State.boundary_guarded _)

theorem State.beginFrameZero_guarded (s : State) : Guarded lawful s s.beginFrameZero :=
  (State.frameStart_guarded _ _).from rfl rfl rfl

theorem State.nextOffset_guarded (s : State) : Guarded lawful s s.nextOffset := by
  have event : Guarded lawful s (State.offsetEvent { s with timebase := { s.timebase with tick := s.timebase.tick + 1 } }
      (s.timebase.tick + 1)) :=
    (State.offsetEventAfter_guarded _ [] _ fun _ hc => by cases hc).from rfl rfl rfl
  unfold State.nextOffset
  simp only
  split
  · exact event.upto rfl rfl rfl
  · exact event

theorem State.walkTick_guarded (s : State) : Guarded lawful s s.walkTick := by
  unfold State.walkTick; split
  exacts [s.nextOffset_guarded, s.boundary_guarded]

theorem State.holdTick_guarded (s : State) : Guarded lawful s s.holdTick := by
  unfold State.holdTick; split <;> exact .of_same rfl rfl rfl

theorem State.timebaseTick_guarded (s : State) (arrival : Bool) : Guarded lawful s (s.timebaseTick arrival) := by
  unfold State.timebaseTick; split
  exacts [.refl s, .refl s, s.beginFrameZero_guarded, .refl s, s.boundaryByArrival_guarded, s.walkTick_guarded,
    s.boundaryByArrival_guarded, s.walkTick_guarded, s.boundary_guarded, s.holdTick_guarded]

theorem State.settleSync_guarded (s : State) : Guarded lawful s s.settleSync := by
  unfold State.settleSync
  split
  · unfold State.syncExpires
    split
    · exact .of_same rfl rfl rfl
    · have bounds := State.boundary_guarded (lawful := lawful)
        { s with timebase := { s.timebase with missCount := bump8 s.timebase.missCount } }
      exact (bounds.from (s := s) rfl rfl rfl).trans (State.setFlag_guarded _ _)
  · exact .refl s

theorem State.settleTick_guarded (s : State) : Guarded lawful s s.settleTick :=
  ((s.settleSync_guarded.trans (State.takeAllClaims_guarded _)).trans (State.examineOwed_guarded _)).trans
    (.foldl _ (fun t g => .foldl _ (fun u _ => u.expireOne_guarded g) _ t) _ _)

/-! ### The tick (R63, R74) -/

/-- No wait of the group has reached the limit. -/
def InterlockGroup.Below (r : InterlockGroup) : Prop := ∀ w ∈ r.queue, w.wait < r.limit

/-- The entries of a group whose wait has reached the limit. -/
def InterlockGroup.expired (r : InterlockGroup) : Nat := r.queue.countP fun w => r.limit ≤ w.wait

theorem InterlockGroup.below_of_expired {r : InterlockGroup} (h : r.expired = 0) : r.Below := fun w hw => by
  simpa using List.countP_eq_zero.1 h w hw

/-- From every queue entries may have left; the limits stay. -/
def QueuesShrink (s t : State) : Prop :=
  ∀ g : Fin 6, t.groups[g].limit = s.groups[g].limit ∧ t.groups[g].queue.Sublist s.groups[g].queue

theorem QueuesShrink.refl (s : State) : QueuesShrink s s := fun _ => ⟨rfl, .refl _⟩

theorem QueuesShrink.trans {s t u : State} (h : QueuesShrink s t) (k : QueuesShrink t u) : QueuesShrink s u :=
  fun g => ⟨(k g).1.trans (h g).1, (k g).2.trans (h g).2⟩

theorem QueuesShrink.foldl {α : Type} (f : State → α → State) (hf : ∀ s a, QueuesShrink s (f s a)) (l : List α)
    (s : State) : QueuesShrink s (l.foldl f s) := by
  induction l generalizing s with
  | nil => exact .refl s
  | cons a rest ih => exact (hf s a).trans (ih _)

theorem QueuesShrink.below {s t : State} (h : QueuesShrink s t) {g : Fin 6} (below : s.groups[g].Below) :
    t.groups[g].Below := fun w hw => by rw [(h g).1]; exact below w ((h g).2.mem hw)

theorem QueuesShrink.expired {s t : State} (h : QueuesShrink s t) (g : Fin 6) :
    t.groups[g].expired ≤ s.groups[g].expired := by
  unfold InterlockGroup.expired
  rw [(h g).1]
  exact (h g).2.countP_le

/-- A group's record is replaced by one with the same limit and no new entry. -/
theorem State.setGroupRecord_shrink (s : State) (g : Fin 6) (r : InterlockGroup) (limit : r.limit = s.groups[g].limit)
    (queue : r.queue.Sublist s.groups[g].queue) : QueuesShrink s (s.setGroupRecord g r) := by
  intro k
  rw [State.setGroupRecord, set_fin]
  split
  · rename_i e; subst e; exact ⟨limit, queue⟩
  · exact ⟨rfl, .refl _⟩

theorem State.examineHead_shrink (s : State) (g : Fin 6) : QueuesShrink s (s.examineHead g) := by
  unfold State.examineHead
  split
  · exact .refl s
  · rename_i w rest queue
    split
    · exact State.setGroupRecord_shrink (s.setLine _ _) g _ rfl (queue ▸ List.sublist_cons_self _ _)
    · exact .refl s

theorem withoutExpired_countP (limit : Nat) (queue : List Waiting) :
    match withoutExpired limit queue with
    | none => queue.countP (fun w => limit ≤ w.wait) = 0
    | some rest => queue.countP (fun w => limit ≤ w.wait) = rest.countP (fun w => limit ≤ w.wait) + 1 := by
  induction queue with
  | nil => rfl
  | cons w queue ih =>
    unfold withoutExpired
    by_cases h : limit ≤ w.wait
    · simp [h]
    · cases k : withoutExpired limit queue <;> rw [k] at ih <;> simpa [h] using ih

/-- An expiry takes out one of the entries at the limit, if there is one, and lets no other in (R126). -/
theorem State.expireOne_shrink (s : State) (g : Fin 6) :
    QueuesShrink s (s.expireOne g) ∧ (s.expireOne g).groups[g].expired ≤ s.groups[g].expired - 1 := by
  have counted := withoutExpired_countP s.groups[g].limit s.groups[g].queue
  unfold State.expireOne
  split
  · rename_i none_expired
    rw [none_expired] at counted
    exact ⟨.refl s, counted.le.trans (Nat.zero_le _)⟩
  · rename_i queue expired
    rw [expired] at counted
    let r : InterlockGroup :=
      { s.groups[g] with queue := queue, abandoned := bump8 s.groups[g].abandoned }
    have leaves : QueuesShrink s ((s.setGroupRecord g r).setFlag .defer) :=
      s.setGroupRecord_shrink g r rfl (withoutExpired_sublist expired)
    have head := ((s.setGroupRecord g r).setFlag .defer).examineHead_shrink g
    refine ⟨leaves.trans head, (head.expired g).trans ?_⟩
    have left : ((s.setGroupRecord g r).setFlag .defer).groups[g] = r := s.setGroupRecord_self g r
    rw [left]
    exact Nat.le_of_eq (Nat.eq_sub_of_add_eq counted.symm)

theorem State.expireGroup_shrink (s : State) (g : Fin 6) : QueuesShrink s (s.expireGroup g) :=
  .foldl _ (fun t _ => (t.expireOne_shrink g).1) _ s

/-- After as many expiries as the queue has entries no wait is at the limit. -/
theorem State.expireGroup_below (s : State) (g : Fin 6) : (s.expireGroup g).groups[g].Below := by
  have all_expire (l : List Waiting) (t : State) (enough : t.groups[g].expired ≤ l.length) :
      (l.foldl (fun u _ => u.expireOne g) t).groups[g].Below := by
    induction l generalizing t with
    | nil => exact InterlockGroup.below_of_expired (Nat.le_zero.1 enough)
    | cons w rest ih =>
      exact ih _ ((t.expireOne_shrink g).2.trans (Nat.sub_le_of_le_add (by simpa using enough)))
  exact all_expire _ s List.countP_le_length

/-- What the last tick left is settled: no wait is at its limit (R126). -/
theorem State.settleTick_below (s : State) (g : Fin 6) : s.settleTick.groups[g].Below := by
  have all_groups (l : List (Fin 6)) (t : State) (hg : g ∈ l) : (l.foldl State.expireGroup t).groups[g].Below := by
    induction l generalizing t with
    | nil => cases hg
    | cons k rest ih =>
      rcases List.mem_cons.1 hg with rfl | hg
      · exact (QueuesShrink.foldl _ State.expireGroup_shrink rest _).below (t.expireGroup_below g)
      · exact ih _ hg
  exact all_groups _ _ (mem_allGroups g)

theorem Line.aged_settles (l : Line) : Line.Settles lawful l l.aged where
  group := rfl
  level := fun _ _ h => h
  levels := fun _ _ h => h
  age := fun bound => ⟨Nat.min_le_right _ _, fun _ => Nat.le_min.2 ⟨Nat.le_succ _, bound⟩⟩

/-- Ages and waits advance, where no wait is at its limit (R109, R125). -/
theorem State.advanceAges_guarded (s : State) (below : ∀ g : Fin 6, s.groups[g].Below) :
    Guarded lawful s s.advanceAges := by
  have ages := s.mapLines_guarded (lawful := lawful) Line.aged fun l _ => l.aged_settles
  exact ages.trans fun _ => .single (.waited below rfl rfl rfl)

theorem State.tickClock_guarded (s : State) : Guarded lawful s s.tickClock := .of_same rfl rfl rfl

theorem State.oneTick_guarded (s : State) : Guarded lawful s s.oneTick :=
  (((s.settleTick_guarded.trans (State.advanceAges_guarded _ s.settleTick_below)).trans
    (State.examineAtTick_guarded _)).trans (State.tickClock_guarded _)).trans (State.timebaseTick_guarded _ _)

end

end Sys2Proof.Machine

/-! What the line block does in one command: moves, or one of the three changes that no move is; and that the laws of
groups, queues, rises and counters are kept by each. -/

namespace Sys2Proof.Machine

/-! ### SET_GROUP's checks (R118) -/

theorem mem_maskLines (mask : Word) (i : Fin 16) : i ∈ maskLines mask ↔ mask.getLsbD i.val = true := by
  simp [maskLines, mem_allLines]

theorem allLines_nodup : allLines.Nodup := by decide

theorem maskLines_nodup (mask : Word) : (maskLines mask).Nodup := allLines_nodup.filter _

theorem Line.mayBeMember_iff (rest safe : Level) :
    Line.mayBeMember rest safe = true ↔ rest = .inactive ∧ safe ≠ .active := by
  simp [Line.mayBeMember]

/-- The CONFIG check of the member set (R118). -/
theorem State.memberConflict_iff (s : State) (g : Fin 6) (proposed : List (Fin 16)) :
    s.memberConflict g proposed = true ↔ proposed.length = 1 ∨ 4 < proposed.length ∨
      ∃ i ∈ proposed, (s.lines[i].group ≠ none ∧ s.lines[i].group ≠ some g) ∨
        s.lines[i].restLevel ≠ .inactive ∨ s.lines[i].safeLevel = .active := by
  have line (i : Fin 16) : ((s.lines[i].group.isSome && s.lines[i].group != some g)
      || !Line.mayBeMember s.lines[i].restLevel s.lines[i].safeLevel) = true ↔
        (s.lines[i].group ≠ none ∧ s.lines[i].group ≠ some g) ∨
          s.lines[i].restLevel ≠ .inactive ∨ s.lines[i].safeLevel = .active := by
    rw [Bool.or_eq_true, Bool.and_eq_true, bne_iff_ne, Option.isSome_iff_ne_none, Bool.not_eq_true', ← Bool.not_eq_true,
      Line.mayBeMember_iff, Decidable.not_and_iff_not_or_not, Decidable.not_not]
  simp only [State.memberConflict, Bool.or_eq_true, List.any_eq_true, beq_iff_eq, decide_eq_true_eq, or_assoc] at line ⊢
  simp only [line]

/-- The INTERLOCK check: two proposed members are ACTIVE (R118). -/
theorem State.twoActive_iff (s : State) {proposed : List (Fin 16)} (nodup : proposed.Nodup) :
    1 < (proposed.filter fun i => s.lines[i].level == .active).length ↔
      ∃ i ∈ proposed, ∃ j ∈ proposed, i ≠ j ∧ s.lines[i].level = .active ∧ s.lines[j].level = .active := by
  rw [← List.toFinset_card_of_nodup (nodup.filter _), Finset.one_lt_card]
  simp only [List.mem_toFinset, List.mem_filter, beq_iff_eq]
  exact ⟨fun ⟨i, ⟨hi, ai⟩, j, ⟨hj, aj⟩, ne⟩ => ⟨i, hi, j, hj, ne, ai, aj⟩,
    fun ⟨i, hi, j, hj, ne, ai, aj⟩ => ⟨i, ⟨hi, ai⟩, j, ⟨hj, aj⟩, ne⟩⟩

/-- A member set that SET_GROUP takes for group `g`: none or 2 to 4 lines, free or of `g`, with a member's levels, and not
two of them ACTIVE (R118). -/
structure State.TakesMembers (s : State) (g : Fin 6) (proposed : List (Fin 16)) : Prop where
  size  : proposed.length ≠ 1 ∧ proposed.length ≤ 4
  free  : ∀ i ∈ proposed, s.lines[i].group = none ∨ s.lines[i].group = some g
  rests : ∀ i ∈ proposed, s.lines[i].restLevel = .inactive ∧ s.lines[i].safeLevel ≠ .active
  apart : ∀ i ∈ proposed, ∀ j ∈ proposed, i ≠ j → ¬(s.lines[i].level = .active ∧ s.lines[j].level = .active)

/-- The checks passed are the constraints of R118. -/
theorem State.takesMembers_of_checks (s : State) {g : Fin 6} {proposed : List (Fin 16)} (nodup : proposed.Nodup)
    (config : ¬s.memberConflict g proposed = true)
    (interlock : ¬1 < (proposed.filter fun i => s.lines[i].level == .active).length) : s.TakesMembers g proposed := by
  rw [s.memberConflict_iff] at config
  rw [s.twoActive_iff nodup] at interlock
  push Not at config interlock
  obtain ⟨one, most, each⟩ := config
  exact ⟨⟨one, most⟩, fun i hi => Classical.or_iff_not_imp_left.2 (each i hi).1, fun i hi => (each i hi).2,
    fun i hi j hj ne ⟨ai, aj⟩ => interlock i hi j hj ne ai aj⟩

/-! ### The line block in one command -/

/-- The group field that SET_GROUP writes in a line (R119). -/
def Line.regrouped (l : Line) (g : Fin 6) (joins : Bool) : Line :=
  { l with group := if joins then some g else if l.group = some g then none else l.group }

/-- The members after SET_GROUP: of the group itself the lines that join, of any other group those it had. -/
theorem Line.regrouped_group_iff (l : Line) (g k : Fin 6) (joins : Bool) :
    (l.regrouped g joins).group = some k ↔ (joins = true ∧ k = g) ∨ (joins = false ∧ k ≠ g ∧ l.group = some k) := by
  unfold Line.regrouped
  cases joins with
  | true => simp [eq_comm]
  | false =>
    by_cases own : l.group = some g
    · simp only [own, if_true, Bool.false_eq_true, if_false, false_and, false_or, true_and, reduceCtorEq, Option.some.injEq,
        false_iff, not_and]
      exact fun ne e => ne e.symm
    · simp only [own, Bool.false_eq_true, if_false, false_and, false_or, true_and]
      exact ⟨fun h => ⟨fun e => own (e ▸ h), h⟩, And.right⟩

/-- What one command does to the line block. -/
inductive LineStep (lawful : Prop) (s t : State) : Prop
  | moves (h : GuardMoves lawful s t)
  /-- A changed prescaler restarts every fall age (R130). -/
  | restarted (lines : t.lines = mapTable s.lines fun l => { l with age := 0 }) (groups : t.groups = s.groups)
      (claims : t.transit.claims = s.transit.claims)
  /-- SET_GROUP (R119). -/
  | regrouped (g : Fin 6) (mask : Word) (r : InterlockGroup) (takes : s.TakesMembers g (maskLines mask))
      (ranges : r.gap ≤ 1023 ∧ r.limit ≤ 1023) (queue : r.queue = [])
      (counters : r.deferred = s.groups[g].deferred ∧ r.abandoned = s.groups[g].abandoned)
      (lines : ∀ i : Fin 16, t.lines[i] = s.lines[i].regrouped g (mask.getLsbD i.val))
      (groups : t.groups = s.groups.set g r) (claims : t.transit.claims = s.transit.claims)
  /-- Power-on values (R134). -/
  | powerOn (lines : ∀ i : Fin 16, t.lines[i] = .powerOn) (groups : ∀ g : Fin 6, t.groups[g] = .powerOn)
      (claims : t.transit.claims = [])

section

variable {lawful : Prop}

theorem LineStep.upto {s t u : State} (h : LineStep lawful s t) (lines : u.lines = t.lines)
    (groups : u.groups = t.groups) (claims : u.transit.claims = t.transit.claims) : LineStep lawful s u := by
  cases h with
  | moves h => exact .moves (h.tail (.handed lines groups fun sent => sent.of_claims claims))
  | restarted l g c => exact .restarted (lines.trans l) (groups.trans g) (claims.trans c)
  | regrouped g mask r takes ranges queue counters l gs c =>
    exact .regrouped g mask r takes ranges queue counters (by rw [lines]; exact l) (groups.trans gs) (claims.trans c)
  | powerOn l gs c => exact .powerOn (by rw [lines]; exact l) (by rw [groups]; exact gs) (claims.trans c)

end

/-! ### No two ACTIVE lines in one group (R122) -/

theorem LineStep.groupsSafe {lawful : Prop} {s t : State} (h : LineStep lawful s t) (hl : lawful) (hs : s.GroupsSafe) :
    t.GroupsSafe := by
  cases h with
  | moves h => exact h.groupsSafe hl hs
  | restarted lines _ claims =>
    have line (i : Fin 16) : t.lines[i] = { s.lines[i] with age := 0 } := by rw [lines, mapTable_fin]
    refine ⟨fun i j => ?_, fun i => ?_, hs.claims.of_claims claims⟩
    · rw [line i, line j]; exact hs.apart i j
    · rw [line i]; exact hs.levels i
  | regrouped g mask r takes _ _ _ lines _ claims =>
    have line (i : Fin 16) (k : Fin 6) (h : t.lines[i].group = some k) :
        (i ∈ maskLines mask ∧ k = g) ∨ (k ≠ g ∧ s.lines[i].group = some k) := by
      rw [lines i, Line.regrouped_group_iff, ← mem_maskLines] at h
      exact h.imp id And.right
    have level (i : Fin 16) : t.lines[i].level = s.lines[i].level := by rw [lines i]; rfl
    refine ⟨fun i j ne member same => ?_, fun i member => ?_, hs.claims.of_claims claims⟩
    · obtain ⟨k, hi⟩ := Option.ne_none_iff_exists'.1 member
      rw [level i, level j]
      rcases line i k hi with ⟨mi, rfl⟩ | ⟨ne_g, hi'⟩ <;> rcases line j k (same ▸ hi) with ⟨mj, e⟩ | ⟨ne_g', hj'⟩
      · exact takes.apart i mi j mj ne
      · exact absurd rfl ne_g'
      · exact absurd e ne_g
      · exact hs.apart i j ne (by rw [hi']; exact Option.some_ne_none k) (hi'.trans hj'.symm)
    · obtain ⟨k, hi⟩ := Option.ne_none_iff_exists'.1 member
      have levels : s.lines[i].restLevel = .inactive ∧ s.lines[i].safeLevel ≠ .active := by
        rcases line i k hi with ⟨mi, _⟩ | ⟨_, hi'⟩
        · exact takes.rests i mi
        · exact hs.levels i (by rw [hi']; exact Option.some_ne_none k)
      rw [lines i]
      exact levels
  | powerOn lines _ claims =>
    have alone (i : Fin 16) : t.lines[i].group = none := by rw [lines i]; rfl
    exact ⟨fun i _ _ member => absurd (alone i) member, fun i member => absurd (alone i) member,
      fun step hstep => by rw [claims] at hstep; cases hstep⟩

/-! ### A member rises only after the gap (R122) -/

/-- What a member's rise since `s` has left standing in `u`: the other members keep the gap. -/
structure RisenApart (s u : State) : Prop where
  safe : u.GroupsSafe
  ages : ∀ i : Fin 16, u.lines[i].age ≤ 1024
  gap  : ∀ (g : Fin 6) (x y : Fin 16), s.lines[x].level ≠ .active → u.lines[x].level = .active →
    u.lines[x].group = some g → u.lines[y].group = some g → y ≠ x → u.groups[g].gap ≤ u.lines[y].age

/-- A rise that is clear leaves the gap to the other members of its group, and of another group raises none. -/
theorem RisenApart.raise {s u t : State} (h : RisenApart s u) {x : Fin 16} (clear : u.RiseClear x)
    (lines : t.lines = u.lines.set x { u.lines[x] with level := .active })
    (gaps : ∀ g : Fin 6, t.groups[g].gap = u.groups[g].gap) (claims : t.transit.claims = u.transit.claims) :
    RisenApart s t := by
  have line (i : Fin 16) : t.lines[i] = if x = i then { u.lines[x] with level := .active } else u.lines[i] := by
    rw [lines, set_fin]
  have age (i : Fin 16) : t.lines[i].age = u.lines[i].age := by
    rw [line i]; split
    · rename_i e; rw [e]
    · rfl
  have group (i : Fin 16) : t.lines[i].group = u.lines[i].group := by
    rw [line i]; split
    · rename_i e; rw [e]
    · rfl
  refine ⟨h.safe.raise clear lines claims, fun i => age i ▸ h.ages i, fun g i j down up hi hj ne => ?_⟩
  rw [gaps g, age j]
  rw [group i] at hi
  rw [group j] at hj
  by_cases e : x = i
  · subst e
    exact (clear g j hi ne hj).2
  · rw [line i, if_neg e] at up
    exact h.gap g i j down up hi hj ne

theorem RisenApart.move {s u t : State} (h : RisenApart s u) (move : GuardMove True u t) : RisenApart s t := by
  have safe := move.groupsSafe trivial h.safe
  -- Lines and gaps stay.
  have still (lines : t.lines = u.lines) (gaps : ∀ g : Fin 6, t.groups[g].gap = u.groups[g].gap) : RisenApart s t :=
    ⟨safe, by rw [lines]; exact h.ages, fun g => by rw [lines, gaps g]; exact h.gap g⟩
  -- One group's record changes and keeps its gap.
  have record {g : Fin 6} {r : InterlockGroup} (groups : t.groups = u.groups.set g r) (gap : r.gap = u.groups[g].gap)
      (k : Fin 6) : t.groups[k].gap = u.groups[k].gap := by
    rw [groups, set_fin]; split
    · rename_i e; subst e; exact gap
    · rfl
  cases move with
  | handed lines groups _ => exact still lines fun g => by rw [groups]
  | settled lines groups _ =>
    refine ⟨safe, fun i => ((lines i).age (h.ages i)).1, fun g x y down up hx hy ne => ?_⟩
    rw [(lines x).group] at hx
    rw [(lines y).group] at hy
    have member : u.lines[x].group ≠ none := by rw [hx]; exact Option.some_ne_none g
    have stood := (lines x).level trivial member up
    have other : u.lines[y].level ≠ .active := fun k => h.safe.apart x y ne.symm member (hx.trans hy.symm) ⟨stood, k⟩
    rw [groups]
    exact (h.gap g x y down stood hx hy ne).trans (((lines y).age (h.ages y)).2 other)
  | shrunk lines groups _ => exact still lines fun g => (groups g).gap
  | waited _ lines groups _ => exact still lines fun g => by rw [groups, mapTable_fin]; rfl
  | deferred g x _ _ _ _ lines groups _ => exact still lines (record groups rfl)
  | raised x clear _ lines groups claims => exact h.raise clear lines (fun g => by rw [groups]) claims
  | granted g w rest _ clear lines groups claims => exact h.raise clear lines (record groups rfl) claims

theorem RisenApart.moves {s u t : State} (h : RisenApart s u) (moves : GuardMoves True u t) : RisenApart s t := by
  induction moves with
  | refl => exact h
  | tail _ move ih => exact ih.move move

theorem LineStep.gap {s t : State} (h : LineStep True s t) (hs : s.GroupsSafe) (ages : ∀ i : Fin 16, s.lines[i].age ≤ 1024)
    {g : Fin 6} {x y : Fin 16} (down : s.lines[x].level ≠ .active) (up : t.lines[x].level = .active)
    (hx : t.lines[x].group = some g) (hy : t.lines[y].group = some g) (ne : y ≠ x) :
    t.lines[y].level ≠ .active ∧ t.groups[g].gap ≤ t.lines[y].age := by
  have safe := h.groupsSafe trivial hs
  have other : t.lines[y].level ≠ .active := fun k =>
    safe.apart x y ne.symm (by rw [hx]; exact Option.some_ne_none g) (hx.trans hy.symm) ⟨up, k⟩
  refine ⟨other, ?_⟩
  cases h with
  | moves h =>
    have risen : RisenApart s s := ⟨hs, ages, fun _ _ _ down up => absurd up down⟩
    exact (risen.moves h).gap g x y down up hx hy ne
  | restarted lines _ _ => rw [lines, mapTable_fin] at up; exact absurd up down
  | regrouped _ _ _ _ _ _ _ lines _ _ => rw [lines x] at up; exact absurd up down
  | powerOn lines _ _ => rw [lines x] at hx; cases hx

/-! ### The counters and fall ages (R109, R202) -/

/-- The line block's part of the counters' law. -/
structure State.LineCounters (s : State) : Prop where
  ages      : ∀ i : Fin 16, s.lines[i].age ≤ 1024
  deferred  : ∀ g : Fin 6, s.groups[g].deferred ≤ 255
  abandoned : ∀ g : Fin 6, s.groups[g].abandoned ≤ 255

theorem forall_set {n : Nat} {α : Type} {P : α → Prop} {v w : Vector α n} {i : Fin n} {a : α} (h : ∀ j : Fin n, P v[j])
    (ha : P a) (hw : w = v.set i a) (j : Fin n) : P w[j] := by
  rw [hw, set_fin]; split
  · exact ha
  · exact h j

theorem GuardMove.counters {lawful : Prop} {s t : State} (h : GuardMove lawful s t) (hs : s.LineCounters) :
    t.LineCounters := by
  obtain ⟨ages, deferred, abandoned⟩ := hs
  -- Lines move, groups stay; a line rises and keeps its fall age.
  have risen {x : Fin 16} (lines : t.lines = s.lines.set x { s.lines[x] with level := .active }) (i : Fin 16) :
      t.lines[i].age ≤ 1024 := forall_set (P := fun l => l.age ≤ 1024) ages (ages x) lines i
  cases h with
  | handed lines groups _ => exact ⟨by rw [lines]; exact ages, by rw [groups]; exact deferred, by rw [groups]; exact abandoned⟩
  | settled lines groups _ =>
    exact ⟨fun i => ((lines i).age (ages i)).1, by rw [groups]; exact deferred, by rw [groups]; exact abandoned⟩
  | shrunk lines groups _ =>
    exact ⟨by rw [lines]; exact ages, fun g => (groups g).deferred (deferred g), fun g => (groups g).abandoned (abandoned g)⟩
  | waited _ lines groups _ =>
    have record (g : Fin 6) : t.groups[g] = s.groups[g].aged := by rw [groups, mapTable_fin]
    exact ⟨by rw [lines]; exact ages, fun g => by rw [record g]; exact deferred g,
      fun g => by rw [record g]; exact abandoned g⟩
  | deferred g x _ _ _ _ lines groups _ =>
    exact ⟨by rw [lines]; exact ages, forall_set (P := fun r => r.deferred ≤ 255) deferred (bump8_le _) groups,
      forall_set (P := fun r => r.abandoned ≤ 255) abandoned (abandoned g) groups⟩
  | raised x _ _ lines groups _ =>
    exact ⟨risen lines, by rw [groups]; exact deferred, by rw [groups]; exact abandoned⟩
  | granted g w rest _ _ lines groups _ =>
    exact ⟨risen lines, forall_set (P := fun r => r.deferred ≤ 255) deferred (deferred g) groups,
      forall_set (P := fun r => r.abandoned ≤ 255) abandoned (abandoned g) groups⟩

theorem LineStep.counters {lawful : Prop} {s t : State} (h : LineStep lawful s t) (hs : s.LineCounters) :
    t.LineCounters := by
  cases h with
  | moves h =>
    induction h with
    | refl => exact hs
    | tail _ move ih => exact move.counters ih
  | restarted lines groups _ =>
    exact ⟨fun i => by rw [lines, mapTable_fin]; exact Nat.zero_le _, by rw [groups]; exact hs.deferred,
      by rw [groups]; exact hs.abandoned⟩
  | regrouped g _ r _ _ _ counters lines groups _ =>
    exact ⟨fun i => by rw [lines i]; exact hs.ages i,
      forall_set (P := fun r => r.deferred ≤ 255) hs.deferred (counters.1 ▸ hs.deferred g) groups,
      forall_set (P := fun r => r.abandoned ≤ 255) hs.abandoned (counters.2 ▸ hs.abandoned g) groups⟩
  | powerOn lines groups _ =>
    exact ⟨fun i => by rw [lines i]; exact Nat.le_refl _, fun g => by rw [groups g]; exact Nat.zero_le _,
      fun g => by rw [groups g]; exact Nat.zero_le _⟩

end Sys2Proof.Machine

/-! The deferral queues stay lawful: what each move of the line block does to the law of one group. -/

namespace Sys2Proof.Machine

/-! ### The law of one group (R117, R124, R126) -/

/-- The law of group `g`'s record over the lines. -/
structure InterlockGroup.LawfulIn (r : InterlockGroup) (lines : Vector Line 16) (g : Fin 6) : Prop where
  members : ∀ w ∈ r.queue, lines[w.line].group = some g
  down    : ∀ w ∈ r.queue, lines[w.line].level ≠ .active
  once    : (r.queue.map fun w => w.line).Nodup
  waits   : ∀ w ∈ r.queue, w.wait ≤ r.limit
  policy  : r.policy = .trip → r.queue = []
  ranges  : r.gap ≤ 1023 ∧ r.limit ≤ 1023

/-- A group has no line or 2 to 4 (R117). -/
def State.SizesLawful (s : State) : Prop :=
  ∀ g : Fin 6, s.members g = [] ∨ (2 ≤ (s.members g).length ∧ (s.members g).length ≤ 4)

theorem State.queuesLawful_iff (s : State) :
    s.QueuesLawful ↔ s.SizesLawful ∧ ∀ g : Fin 6, s.groups[g].LawfulIn s.lines g :=
  ⟨fun h => ⟨h.sizes, fun g => ⟨h.members g, h.down g, h.once g, h.waits g, h.policy g, h.ranges g⟩⟩,
    fun ⟨sizes, h⟩ => ⟨sizes, fun g => (h g).members, fun g => (h g).down, fun g => (h g).once, fun g => (h g).waits,
      fun g => (h g).policy, fun g => (h g).ranges⟩⟩

theorem State.members_congr {s t : State} (h : ∀ i : Fin 16, t.lines[i].group = s.lines[i].group) (g : Fin 6) :
    t.members g = s.members g := by
  unfold State.members
  congr 1
  funext i
  rw [h i]

theorem State.SizesLawful.congr {s t : State} (hs : s.SizesLawful)
    (h : ∀ i : Fin 16, t.lines[i].group = s.lines[i].group) : t.SizesLawful := fun g => by
  rw [State.members_congr h g]; exact hs g

/-- The waiting lines keep their group and none of them becomes ACTIVE. -/
theorem InterlockGroup.LawfulIn.relined {r : InterlockGroup} {lines lines' : Vector Line 16} {g : Fin 6}
    (h : r.LawfulIn lines g)
    (kept : ∀ w ∈ r.queue, lines'[w.line].group = lines[w.line].group ∧
      (lines'[w.line].level = .active → lines[w.line].level = .active)) : r.LawfulIn lines' g :=
  ⟨fun w hw => (kept w hw).1.trans (h.members w hw), fun w hw k => h.down w hw ((kept w hw).2 k), h.once, h.waits,
    h.policy, h.ranges⟩

/-- Entries may leave. -/
theorem InterlockGroup.LawfulIn.shrinks {r r' : InterlockGroup} {lines : Vector Line 16} {g : Fin 6}
    (h : r.LawfulIn lines g) (shrinks : r.Shrinks r') : r'.LawfulIn lines g where
  members := fun w hw => h.members w (shrinks.queue.mem hw)
  down := fun w hw => h.down w (shrinks.queue.mem hw)
  once := h.once.sublist (shrinks.queue.map _)
  waits := fun w hw => by rw [shrinks.limit]; exact h.waits w (shrinks.queue.mem hw)
  policy := fun k => by
    have empty := h.policy (shrinks.policy ▸ k)
    exact List.sublist_nil.1 (empty ▸ shrinks.queue)
  ranges := by rw [shrinks.gap, shrinks.limit]; exact h.ranges

/-- Waits below the limit may advance by one. -/
theorem InterlockGroup.LawfulIn.aged {r : InterlockGroup} {lines : Vector Line 16} {g : Fin 6} (h : r.LawfulIn lines g)
    (below : ∀ w ∈ r.queue, w.wait < r.limit) : r.aged.LawfulIn lines g := by
  have waited {P : Waiting → Prop} (hP : ∀ w ∈ r.queue, P { w with wait := w.wait + 1 }) : ∀ w ∈ r.aged.queue, P w := by
    intro w hw
    obtain ⟨v, hv, rfl⟩ := List.mem_map.1 hw
    exact hP v hv
  have same : r.aged.queue.map (fun w => w.line) = r.queue.map fun w => w.line := by
    simp [InterlockGroup.aged, Function.comp_def]
  exact ⟨waited h.members, waited h.down, same ▸ h.once, waited below, fun k => by
    simp [InterlockGroup.aged, h.policy k], h.ranges⟩

/-- A member that is not ACTIVE and not waiting may join the tail of a DEFER group. -/
theorem InterlockGroup.LawfulIn.joined {r : InterlockGroup} {lines : Vector Line 16} {g : Fin 6} (h : r.LawfulIn lines g)
    {x : Fin 16} (member : lines[x].group = some g) (down : lines[x].level ≠ .active)
    (absent : ∀ w ∈ r.queue, w.line ≠ x) (policy : r.policy = .defer) (deferred : Nat) :
    InterlockGroup.LawfulIn { r with queue := r.queue ++ [⟨x, 0⟩], deferred := deferred } lines g := by
  have joined {P : Waiting → Prop} (hP : ∀ w ∈ r.queue, P w) (hx : P ⟨x, 0⟩) :
      ∀ w ∈ r.queue ++ [(⟨x, 0⟩ : Waiting)], P w := by
    intro w hw
    rcases List.mem_append.1 hw with hw | hw
    · exact hP w hw
    · rw [List.mem_singleton.1 hw]; exact hx
  refine ⟨joined h.members member, joined h.down down, ?_, joined h.waits (Nat.zero_le _), fun k => ?_, h.ranges⟩
  · show ((r.queue ++ [(⟨x, 0⟩ : Waiting)]).map fun w => w.line).Nodup
    rw [List.map_append, List.nodup_append]
    refine ⟨h.once, List.nodup_singleton _, fun i hi j hj => ?_⟩
    obtain ⟨w, hw, rfl⟩ := List.mem_map.1 hi
    rw [List.mem_singleton.1 hj]
    exact absent w hw
  · exact absurd (policy.symm.trans k) (by decide)

/-! ### Moves and steps -/

/-- A line that waits in none of the queues may rise. -/
theorem InterlockGroup.LawfulIn.raise {r : InterlockGroup} {lines : Vector Line 16} {g : Fin 6} (h : r.LawfulIn lines g)
    {x : Fin 16} (absent : ∀ w ∈ r.queue, w.line ≠ x) :
    r.LawfulIn (lines.set x { lines[x] with level := .active }) g :=
  h.relined fun w hw => by rw [set_fin, if_neg (absent w hw).symm]; exact ⟨rfl, id⟩

theorem raised_group (lines : Vector Line 16) (x i : Fin 16) :
    (lines.set x { lines[x] with level := .active })[i].group = lines[i].group := by
  rw [set_fin]; split
  · rename_i e; rw [e]
  · rfl

theorem GuardMove.queuesLawful {s t : State} (h : GuardMove True s t) (hs : s.QueuesLawful) : t.QueuesLawful := by
  rw [State.queuesLawful_iff] at hs ⊢
  obtain ⟨sizes, lawful⟩ := hs
  have still (lines : t.lines = s.lines) : t.SizesLawful := sizes.congr fun i => by rw [lines]
  cases h with
  | handed lines groups _ => exact ⟨still lines, by rw [lines, groups]; exact lawful⟩
  | settled lines groups _ =>
    refine ⟨sizes.congr fun i => (lines i).group, fun g => ?_⟩
    rw [groups]
    refine (lawful g).relined fun w hw => ⟨(lines w.line).group, (lines w.line).level trivial ?_⟩
    rw [(lawful g).members w hw]
    exact Option.some_ne_none g
  | shrunk lines groups _ =>
    exact ⟨still lines, fun g => by rw [lines]; exact (lawful g).shrinks (groups g)⟩
  | waited below lines groups _ =>
    exact ⟨still lines, fun g => by rw [lines, groups, mapTable_fin]; exact (lawful g).aged (below g)⟩
  | deferred g x member down absent policy lines groups _ =>
    refine ⟨still lines, fun k => ?_⟩
    rw [lines, groups, set_fin]
    split
    · rename_i e; subst e; exact (lawful g).joined member down absent policy _
    · exact lawful k
  | raised x clear absent lines groups _ =>
    refine ⟨sizes.congr fun i => by rw [lines]; exact raised_group _ _ _, fun g => ?_⟩
    rw [lines, groups]
    refine (lawful g).raise fun w hw e => absent g ?_ w hw e
    rw [← e]
    exact (lawful g).members w hw
  | granted g w rest queue clear lines groups _ =>
    refine ⟨sizes.congr fun i => by rw [lines]; exact raised_group _ _ _, fun k => ?_⟩
    have head : w ∈ s.groups[g].queue := by rw [queue]; exact List.mem_cons_self
    rw [lines, groups, set_fin]
    split
    · rename_i e
      subst e
      have left : InterlockGroup.LawfulIn { s.groups[g] with queue := rest } s.lines g :=
        (lawful g).shrinks ⟨rfl, rfl, rfl, queue ▸ List.sublist_cons_self _ _, id, id⟩
      have once := (lawful g).once
      rw [queue, List.map_cons, List.nodup_cons] at once
      exact left.raise fun v hv same => once.1 (same ▸ List.mem_map_of_mem hv)
    · rename_i other
      refine (lawful k).raise fun v hv same => other ?_
      have group : s.lines[w.line].group = s.lines[v.line].group :=
        congrArg (fun i : Fin 16 => s.lines[i].group) same.symm
      exact Option.some.inj (((lawful g).members w head).symm.trans (group.trans ((lawful k).members v hv)))

/-- The members SET_GROUP leaves (R119). -/
theorem State.TakesMembers.sizes {s t : State} {g : Fin 6} {mask : Word} (takes : s.TakesMembers g (maskLines mask))
    (sizes : s.SizesLawful) (lines : ∀ i : Fin 16, t.lines[i] = s.lines[i].regrouped g (mask.getLsbD i.val)) :
    t.SizesLawful := by
  intro k
  have member (i : Fin 16) : t.lines[i].group = some k ↔
      (mask.getLsbD i.val = true ∧ k = g) ∨ (mask.getLsbD i.val = false ∧ k ≠ g ∧ s.lines[i].group = some k) := by
    rw [lines i]; exact Line.regrouped_group_iff _ _ _ _
  by_cases e : k = g
  · have joined : t.members k = maskLines mask := by
      unfold State.members maskLines
      congr 1
      funext i
      rw [Bool.eq_iff_iff, beq_iff_eq, member i]
      simp [e]
    rw [joined]
    have := takes.size
    rcases h : maskLines mask with _ | ⟨i, rest⟩
    · exact .inl rfl
    · rw [h] at this; simp only [List.length_cons] at this ⊢; omega
  · have kept : t.members k = s.members k := by
      unfold State.members
      congr 1
      funext i
      rw [Bool.eq_iff_iff, beq_iff_eq, beq_iff_eq, member i]
      refine ⟨fun h => (h.resolve_left fun j => e j.2).2.2, fun h => .inr ⟨?_, e, h⟩⟩
      rw [← Bool.not_eq_true, ← mem_maskLines]
      intro joins
      rcases takes.free i joins with free | own
      · rw [free] at h; cases h
      · exact e (Option.some.inj (h.symm.trans own))
    rw [kept]
    exact sizes k

theorem LineStep.queuesLawful {s t : State} (h : LineStep True s t) (hs : s.QueuesLawful) : t.QueuesLawful := by
  cases h with
  | moves h =>
    induction h with
    | refl => exact hs
    | tail _ move ih => exact move.queuesLawful ih
  | restarted lines groups _ =>
    have line (i : Fin 16) : t.lines[i] = { s.lines[i] with age := 0 } := by rw [lines, mapTable_fin]
    rw [State.queuesLawful_iff] at hs ⊢
    refine ⟨hs.1.congr fun i => by rw [line i], fun g => ?_⟩
    rw [groups]
    exact (hs.2 g).relined fun w _ => by rw [line w.line]; exact ⟨rfl, id⟩
  | regrouped g mask r takes ranges queue _ lines groups _ =>
    rw [State.queuesLawful_iff] at hs ⊢
    obtain ⟨sizes, lawful⟩ := hs
    refine ⟨takes.sizes sizes lines, fun k => ?_⟩
    rw [groups, set_fin]
    split
    · have empty {P : Waiting → Prop} : ∀ w ∈ r.queue, P w := by rw [queue]; intro w hw; cases hw
      exact ⟨empty, empty, by rw [queue]; exact List.nodup_nil, empty, fun _ => queue, ranges⟩
    · rename_i other
      refine (lawful k).relined fun w hw => ⟨?_, by rw [lines w.line]; exact id⟩
      have member := (lawful k).members w hw
      rw [member, lines w.line, Line.regrouped_group_iff]
      refine .inr ⟨?_, fun e => other e.symm, member⟩
      rw [← Bool.not_eq_true, ← mem_maskLines]
      intro joins
      rcases takes.free w.line joins with free | own
      · rw [free] at member; cases member
      · exact other (Option.some.inj (own.symm.trans member))
  | powerOn lines groups _ =>
    have alone (g : Fin 6) : t.members g = [] := by
      rw [State.members, List.filter_eq_nil_iff]
      intro i _
      rw [lines i]
      exact Bool.false_ne_true
    rw [State.queuesLawful_iff]
    refine ⟨fun g => .inl (alone g), fun g => ?_⟩
    have empty {P : Waiting → Prop} : ∀ w ∈ InterlockGroup.powerOn.queue, P w := by intro w hw; cases hw
    rw [groups g]
    exact ⟨empty, empty, List.nodup_nil, empty, fun _ => rfl, by decide⟩

end Sys2Proof.Machine

/-! The commands that reach the line block, each as a step of it. -/

namespace Sys2Proof.Machine

/-! ### Records written twice -/

theorem State.setLine_setLine (s : State) (x : Fin 16) (l l' : Line) : (s.setLine x l).setLine x l' = s.setLine x l' := by
  unfold State.setLine
  simp [Vector.set_set]

theorem State.setLine_setMode (s : State) (x : Fin 16) (l : Line) (mode : LineMode) :
    (s.setLine x l).setMode x mode = s.setLine x { l with mode := mode } := by
  rw [State.setMode, s.setLine_self, s.setLine_setLine]

theorem State.setMode_setLine (s : State) (x : Fin 16) (l : Line) (mode : LineMode) :
    (s.setMode x mode).setLine x l = s.setLine x l := s.setLine_setLine x _ l

theorem State.setMode_self (s : State) (x : Fin 16) (mode : LineMode) :
    (s.setMode x mode).lines[x] = { s.lines[x] with mode := mode } := s.setLine_self x _

/-! ### SET_LINE_CONFIG (R112, R113) -/

section

variable {lawful : Prop}

/-- A mode is no part of what a move does to a line. -/
theorem State.setMode_guarded (s : State) (i : Fin 16) (mode : LineMode) : Guarded lawful s (s.setMode i mode) :=
  s.setLine_guarded i _ fun _ => ⟨rfl, fun _ _ h => h, fun _ _ h => h, fun h => ⟨h, fun _ => Nat.le_refl _⟩⟩

theorem State.applyLineConfig_guarded (s : State) (i : Fin 16) (polarity : Polarity) (rest safe : Level)
    (allowed : s.lines[i].group ≠ none → rest = .inactive ∧ safe ≠ .active) :
    Guarded lawful s (s.applyLineConfig i polarity rest safe) := by
  let l : Line := { s.lines[i] with polarity := polarity, restLevel := rest, safeLevel := safe }
  have written : Guarded lawful s (s.setLine i l) := s.setLine_guarded i l fun _ =>
    ⟨rfl, fun _ _ h => h, fun _ member _ => allowed member, fun h => ⟨h, fun _ => Nat.le_refl _⟩⟩
  unfold State.applyLineConfig
  simp only
  split
  · refine written.trans (State.moveLine_guarded _ i rest fun _ _ member => ?_)
    rw [s.setLine_self] at member
    rw [(allowed member).1]; decide
  · exact written

theorem State.setLineConfig_guarded (s : State) : Guarded lawful s s.setLineConfig.1 := by
  unfold State.setLineConfig
  split
  · exact .refl s
  · split
    · exact .refl s
    · split
      · exact .refl s
      · split
        · exact .refl s
        · rename_i i polarity rest safe _ allowed
          refine s.applyLineConfig_guarded i polarity rest safe fun member => ?_
          rw [← Line.mayBeMember_iff]
          simpa [-Fin.getElem_fin, Option.isSome_iff_ne_none, member] using allowed

/-! ### SET_LINE_MODE (R114 to R116) -/

/-- The condition of R122 reads the groups, levels and fall ages of the lines, and the gaps. -/
theorem State.RiseClear.congr {s t : State} {x : Fin 16} (h : s.RiseClear x)
    (lines : ∀ i : Fin 16, t.lines[i].group = s.lines[i].group ∧ t.lines[i].age = s.lines[i].age ∧
      (t.lines[i].level = .active → s.lines[i].level = .active))
    (gaps : ∀ g : Fin 6, t.groups[g].gap = s.groups[g].gap) : t.RiseClear x := by
  intro g y hx ne hy
  obtain ⟨groupx, _, _⟩ := lines x
  obtain ⟨groupy, age, level⟩ := lines y
  obtain ⟨down, gap⟩ := h g y (groupx ▸ hx) ne (groupy ▸ hy)
  exact ⟨fun k => down (level k), by rw [gaps g, age]; exact gap⟩

/-- A line that rises clear and takes a mode in the same step, and does not wait. -/
theorem State.raise_guarded (s : State) (x : Fin 16) (mode : LineMode) (clear : s.RiseClear x)
    (absent : ∀ g : Fin 6, s.lines[x].group = some g → ∀ w ∈ s.groups[g].queue, w.line ≠ x) :
    Guarded lawful s (s.setLine x { s.lines[x] with mode := mode, level := .active }) := by
  have rises := (s.moveLine_active_guarded (lawful := lawful) x clear absent).trans (State.setMode_guarded _ x mode)
  rwa [s.moveLine_stays_or_rises x .active fun k => k.2 rfl, State.setLine_setMode] at rises

/-- FORCED_ACTIVE for a line that is not waiting and whose rise is clear (R116). -/
theorem State.forceActive_rises (s : State) (i : Fin 16) (down : s.lines[i].level ≠ .active) (clear : s.RiseClear i)
    (absent : ∀ g : Fin 6, s.lines[i].group = some g → ∀ w ∈ s.groups[g].queue, w.line ≠ i) :
    s.forceActive i = (s.setLine i { s.lines[i] with mode := .forcedActive, level := .active }, .ok) := by
  have rises : (s.setMode i .forcedActive).moveLine i .active =
      s.setLine i { s.lines[i] with mode := .forcedActive, level := .active } := by
    rw [State.moveLine_stays_or_rises _ i .active fun k => k.2 rfl, s.setMode_setLine, s.setMode_self]
  rw [State.forceActive, if_neg down, if_pos ((s.clear_iff_riseClear i).2 clear), rises, State.removeWaiting_absent]
  intro g hg
  rw [s.setLine_self] at hg
  exact absent g hg

/-- FORCED_ACTIVE for a waiting line whose rise is clear: it leaves its queue besides, and the head is examined. -/
theorem State.forceActive_waiting (s : State) (i : Fin 16) (g : Fin 6) (down : s.lines[i].level ≠ .active)
    (clear : s.RiseClear i) (member : s.lines[i].group = some g) (waits : ∃ w ∈ s.groups[g].queue, w.line = i) :
    s.forceActive i = (((s.setGroupRecord g { s.groups[g] with
        queue := s.groups[g].queue.filter fun w => w.line ≠ i }).setLine i
          { s.lines[i] with mode := .forcedActive, level := .active }).examineHead g, .ok) := by
  have rises : (s.setMode i .forcedActive).moveLine i .active =
      s.setLine i { s.lines[i] with mode := .forcedActive, level := .active } := by
    rw [State.moveLine_stays_or_rises _ i .active fun k => k.2 rfl, s.setMode_setLine, s.setMode_self]
  rw [State.forceActive, if_neg down, if_pos ((s.clear_iff_riseClear i).2 clear), rises,
    State.removeWaiting_waiting (s.setLine i { s.lines[i] with mode := .forcedActive, level := .active }) i g
      (by rw [s.setLine_self]; exact member) waits]
  rfl

theorem State.forceActive_guarded (s : State) (i : Fin 16) : Guarded lawful s (s.forceActive i).1 := by
  by_cases active : s.lines[i].level = .active
  · rw [State.forceActive, if_pos active]; exact s.setMode_guarded i _
  · by_cases clear : s.RiseClear i
    · by_cases waits : ∃ g, s.lines[i].group = some g ∧ ∃ w ∈ s.groups[g].queue, w.line = i
      · obtain ⟨g, member, waits⟩ := waits
        let r : InterlockGroup := { s.groups[g] with queue := s.groups[g].queue.filter fun w => w.line ≠ i }
        have gaps (k : Fin 6) : (s.setGroupRecord g r).groups[k].gap = s.groups[k].gap := by
          rw [State.setGroupRecord, set_fin]; split
          · rename_i e; subst e; rfl
          · rfl
        have left := s.setGroupRecord_guarded (lawful := lawful) g r ⟨rfl, rfl, rfl, List.filter_sublist, id, id⟩
        have rises := State.raise_guarded (lawful := lawful) (s.setGroupRecord g r) i .forcedActive
          (clear.congr (fun _ => ⟨rfl, rfl, id⟩) gaps) fun k hk w hw => by
            obtain rfl : g = k := Option.some.inj (member.symm.trans hk)
            rw [s.setGroupRecord_self] at hw
            simpa using (List.mem_filter.1 hw).2
        rw [s.forceActive_waiting i g active clear member waits]
        exact (left.trans rises).trans (State.examineHead_guarded _ g)
      · have absent : ∀ g : Fin 6, s.lines[i].group = some g → ∀ w ∈ s.groups[g].queue, w.line ≠ i :=
          fun g hg w hw e => waits ⟨g, hg, w, hw, e⟩
        rw [s.forceActive_rises i active clear absent]
        exact s.raise_guarded i _ clear absent
    · rw [State.forceActive, if_neg active, if_neg fun k => clear ((s.clear_iff_riseClear i).1 k)]
      exact .refl s

theorem State.applyMode_guarded (s : State) (i : Fin 16) (mode : LineMode) : Guarded lawful s (s.applyMode i mode).1 := by
  have rest_level (u : State) (kept : u.lines[i].restLevel = s.lines[i].restLevel) (safe : u.GroupsSafe)
      (member : u.lines[i].group ≠ none) : s.lines[i].restLevel ≠ .active := by
    rw [← kept, (safe.levels i member).1]; decide
  have moded (m : LineMode) : (s.setMode i m).lines[i].restLevel = s.lines[i].restLevel := by rw [s.setMode_self]
  have left (m : LineMode) : Guarded lawful s ((s.setMode i m).removeWaiting i) :=
    (s.setMode_guarded i m).trans (State.removeWaiting_guarded _ i)
  unfold State.applyMode
  cases mode with
  | rest =>
    exact (left .rest).trans (State.moveLine_guarded _ i _ fun _ =>
      rest_level _ (((State.removeWaiting_moves _ i).frame.rests i).trans (moded .rest)))
  | scheduled =>
    simp only
    split
    · exact (s.setMode_guarded i _).trans (State.moveLine_guarded _ i _ fun _ => rest_level _ (moded .scheduled))
    · exact s.setMode_guarded i _
  | forcedActive => exact s.forceActive_guarded i
  | forcedInactive => exact (left .forcedInactive).trans (State.moveLine_guarded _ i _ fun _ _ _ => by decide)

theorem State.setLineMode_guarded (s : State) : Guarded lawful s s.setLineMode.1 := by
  unfold State.setLineMode
  split
  · exact .refl s
  · split
    · exact s.applyMode_guarded _ _
    · exact .refl s

/-! ### Notices and resets (R131 to R135) -/

/-- Every line goes to its rest level (R133). -/
theorem Line.rested_settles (l : Line)
    (levels : lawful → l.group ≠ none → l.restLevel = .inactive ∧ l.safeLevel ≠ .active) :
    Line.Settles lawful l (l.atLevel l.restLevel) :=
  Line.settles_atLevel l _ fun hl member => by rw [(levels hl member).1]; decide

/-- A mode besides is no part of what a line does. -/
theorem Line.Settles.withMode {l l' : Line} (h : Line.Settles lawful l l') (mode : LineMode) :
    Line.Settles lawful l { l' with mode := mode } := ⟨h.group, h.level, h.levels, h.age⟩

theorem Line.safe_settles (l : Line)
    (levels : lawful → l.group ≠ none → l.restLevel = .inactive ∧ l.safeLevel ≠ .active) :
    Line.Settles lawful l l.safe :=
  (Line.settles_atLevel l _ fun hl member => (levels hl member).2).withMode _

theorem Line.softReset_settles (indicator : Bool) (l : Line)
    (levels : lawful → l.group ≠ none → l.restLevel = .inactive ∧ l.safeLevel ≠ .active) :
    Line.Settles lawful l (l.softReset indicator) := by
  cases indicator with
  | true => exact (Line.Settles.refl lawful l).withMode .rest
  | false => exact (l.rested_settles levels).withMode .rest

theorem State.tripLines_guarded (s : State) : Guarded lawful s s.tripLines :=
  (s.emptyQueues_guarded.trans (State.mapLines_guarded _ Line.safe Line.safe_settles)).upto rfl rfl rfl

theorem State.takeSource_guarded (s : State) (sent : SentSource) : Guarded lawful s (s.takeSource sent) := by
  unfold State.takeSource
  split
  · let tripped : State := State.haltTimebase { s with trip := { s.trip with
      state := .tripped, records := [⟨sent.source, s.timebase.stamp⟩] } }
    exact (tripped.tripLines_guarded.from (s := s) rfl rfl rfl).upto rfl rfl rfl
  · unfold State.recordSecondary
    split <;> exact .of_same rfl rfl rfl

theorem State.controllerTakes_guarded (s : State) (source : TripSource) : Guarded lawful s (s.controllerTakes source) := by
  unfold State.controllerTakes
  split
  · exact .refl s
  · exact (State.takeSource_guarded _ _).from rfl rfl rfl

theorem State.lineBlockTakesClear_guarded (s : State) : Guarded lawful s s.lineBlockTakesClear := by
  unfold State.lineBlockTakesClear
  split
  · have rested := s.mapLines_guarded (lawful := lawful) (fun l => l.atLevel l.restLevel) Line.rested_settles
    exact (rested.trans (State.claimsLeft_guarded _ (List.nil_subset _))).upto rfl rfl rfl
  · exact .refl s

theorem State.zeroCounters_guarded (s : State) : Guarded lawful s s.zeroCounters := by
  refine .of_groups rfl (fun g => ?_) rfl
  have groups : s.zeroCounters.groups = mapTable s.groups fun r => { r with deferred := 0, abandoned := 0 } := rfl
  rw [groups, mapTable_fin]
  exact ⟨rfl, rfl, rfl, .refl _, fun _ => Nat.zero_le _, fun _ => Nat.zero_le _⟩

theorem State.resetLines_guarded (s : State) : Guarded lawful s s.resetLines := by
  let emptied : State := { s with groups := mapTable s.groups InterlockGroup.softReset }
  have empties : Guarded lawful s emptied := by
    refine .of_groups rfl (fun g => ?_) rfl
    rw [show emptied.groups = mapTable s.groups InterlockGroup.softReset from rfl, mapTable_fin]
    exact ⟨rfl, rfl, rfl, List.nil_sublist _, fun _ => Nat.zero_le _, fun _ => Nat.zero_le _⟩
  have rested := emptied.mapLines_guarded (lawful := lawful) (Line.softReset s.tripIndicator)
    (Line.softReset_settles s.tripIndicator)
  exact ((empties.trans rested).trans (State.claimsLeft_guarded _ (List.nil_subset _))).upto rfl rfl rfl

theorem State.resetPlanStore_guarded (s : State) : Guarded lawful s s.resetPlanStore := by
  rw [State.resetPlanStore_eq]; exact .of_same rfl rfl rfl

theorem State.softReset_guarded (s : State) : Guarded lawful s s.softReset := by
  have lines := (s.resetPlanStore_guarded (lawful := lawful).upto (u := s.resetPlanStore.idleEngine) rfl rfl rfl).trans
    (State.resetLines_guarded _)
  have zeroed := (lines.upto (u := s.resetPlanStore.idleEngine.resetLines.flushSampling) rfl rfl rfl).trans
    (State.zeroCounters_guarded _)
  exact zeroed.upto rfl rfl rfl

/-! ### The timebase's commands -/

theorem State.startTimebase_guarded (s : State) : Guarded lawful s s.startTimebase.1 := by
  unfold State.startTimebase
  split
  · exact .refl s
  · split
    · exact .refl s
    · split
      · exact .refl s
      · simp only
        split
        · exact (State.beginFrameZero_guarded _).from rfl rfl rfl
        · exact .of_same rfl rfl rfl

theorem State.stopTimebase_guarded (s : State) : Guarded lawful s s.stopTimebase.1 := by
  unfold State.stopTimebase
  split
  exacts [.of_same rfl rfl rfl, s.becomeStopped_guarded, s.becomeStopped_guarded, .refl s, .refl s, .refl s]

/-! ### The three changes that are no moves -/

/-- SET_TIMEBASE restarts the fall ages or leaves the line block alone (R64, R130). -/
theorem State.setTimebase_lineStep (s : State) : LineStep lawful s s.setTimebase.1 := by
  unfold State.setTimebase
  split
  · exact .moves .refl
  · split
    · exact .moves .refl
    · unfold State.applyTimebase
      simp only
      split
      · exact .moves (.single (.handed rfl rfl id))
      · exact .restarted rfl rfl rfl

theorem State.setGroup_lineStep (s : State) : LineStep lawful s s.setGroup.1 := by
  unfold State.setGroup
  split
  · exact .moves .refl
  · split
    · exact .moves .refl
    · split
      · rename_i g policy _ _
        simp only
        split
        · exact .moves .refl
        · rename_i ranges
          split
          · exact .moves .refl
          · rename_i config
            split
            · exact .moves .refl
            · rename_i interlock
              rw [not_or, Nat.not_lt, Nat.not_lt] at ranges
              refine .regrouped g s.port.p1 _ (s.takesMembers_of_checks (maskLines_nodup _) config interlock) ranges rfl
                ⟨rfl, rfl⟩ (fun i => ?_) rfl rfl
              rw [State.applyGroup, tabulate_fin]
              simp only [Line.regrouped, mem_maskLines]
      · exact .moves .refl

theorem State.powerOn_lineStep (s t : State) (lines : t.lines = State.reset.lines) (groups : t.groups = State.reset.groups)
    (claims : t.transit.claims = []) : LineStep lawful s t :=
  .powerOn (fun i => by rw [lines]; exact State.reset_line i) (fun g => by rw [groups]; exact State.reset_group g) claims

end

end Sys2Proof.Machine

/-! The law of the trip: while the line block's indicator is set a step leaves lines and timebase standing; while it is
clear the law says little, and every step that is not the trip's own keeps that little. -/

namespace Sys2Proof.Machine

/-! ### What claims leave (R111) -/

/-- A line at a level is a line of the same block: levels and fall ages alone differ. -/
theorem State.setLine_frame (s : State) (x : Fin 16) (level : Level) :
    LineMoves.Frame s (s.setLine x (s.lines[x].atLevel level)) := by
  have field {α : Type} (f : Line → α) (same : f (s.lines[x].atLevel level) = f s.lines[x]) (i : Fin 16) :
      f (s.setLine x (s.lines[x].atLevel level)).lines[i] = f s.lines[i] := by
    by_cases h : x = i
    · subst h; rw [s.setLine_self, same]
    · rw [s.setLine_other _ h]
  constructor
  case modes => exact field Line.mode rfl
  case members => exact field Line.group rfl
  case rests => exact field Line.restLevel rfl
  case safes => exact field Line.safeLevel rfl
  case polarities => exact field Line.polarity rfl
  all_goals intros; rfl

theorem State.moveLine_frame (s : State) (x : Fin 16) (level : Level) : LineMoves.Frame s (s.moveLine x level) := by
  unfold State.moveLine
  split
  · exact (s.setLine_frame x level).trans (State.examineFor_moves _ x).frame
  · exact s.setLine_frame x level

/-- A claim changes levels, fall ages, queues, counters and the sources sent, whatever target it asks. -/
theorem State.takeClaim_frame (s : State) (c : Claim) : LineMoves.Frame s (s.takeClaim c) := by
  unfold State.takeClaim
  split
  · exact LineMoves.frame_refl s
  · cases c with
    | fall x => exact (s.removeWaiting_moves x).frame.trans (State.moveLine_frame _ x _)
    | startFall x target => exact (s.removeWaiting_moves x).frame.trans (State.moveLine_frame _ x _)
    | rise x => exact (s.judgeRise_moves x).frame
    | startRise x => exact (s.removeWaiting_moves x).frame.trans (State.judgeRise_moves _ x).frame

theorem LineMoves.Frame.foldl {α : Type} (f : State → α → State) (hf : ∀ s a, LineMoves.Frame s (f s a)) (l : List α)
    (s : State) : LineMoves.Frame s (l.foldl f s) := by
  induction l generalizing s with
  | nil => exact LineMoves.frame_refl s
  | cons a rest ih => exact (hf s a).trans (ih _)

theorem State.takeClaimStep_frame (s : State) (claims : List Claim) : LineMoves.Frame s (s.takeClaimStep claims) :=
  .foldl _ State.takeClaim_frame _ _

theorem State.takeAllClaims_frame (s : State) :
    LineMoves.Frame { s with transit := { s.transit with claims := [] } } s.takeAllClaims :=
  .foldl _ State.takeClaimStep_frame _ _

/-- While the trip indicator is set a claim changes nothing (R111). -/
theorem State.takeClaim_indicator (s : State) (indicator : s.tripIndicator = true) (c : Claim) : s.takeClaim c = s := by
  unfold State.takeClaim
  exact if_pos (by rw [indicator]; rfl)

theorem State.takeClaimStep_indicator (s : State) (indicator : s.tripIndicator = true) (claims : List Claim) :
    s.takeClaimStep claims = s :=
  foldl_id _ _ _ fun c _ => s.takeClaim_indicator indicator c

/-! ### What keeps the law -/

/-- What the law of the trip reads is the same, and no empty queue has filled. -/
structure TripKept (s t : State) : Prop where
  state         : t.trip.state = s.trip.state
  records       : t.trip.records = s.trip.records
  clearTimebase : t.transit.clearTimebase = s.transit.clearTimebase
  clearLines    : t.transit.clearLines = s.transit.clearLines
  indicator     : t.tripIndicator = s.tripIndicator
  timebase      : t.timebase.state = s.timebase.state
  levels        : ∀ i : Fin 16, t.lines[i].level = s.lines[i].level
  safes         : ∀ i : Fin 16, t.lines[i].safeLevel = s.lines[i].safeLevel
  modes         : ∀ i : Fin 16, t.lines[i].mode = s.lines[i].mode
  queues        : ∀ g : Fin 6, s.groups[g].queue = [] → t.groups[g].queue = []

theorem TripKept.refl (s : State) : TripKept s s :=
  ⟨rfl, rfl, rfl, rfl, rfl, rfl, fun _ => rfl, fun _ => rfl, fun _ => rfl, fun _ h => h⟩

theorem TripKept.trans {s t u : State} (h : TripKept s t) (k : TripKept t u) : TripKept s u where
  state := k.state.trans h.state
  records := k.records.trans h.records
  clearTimebase := k.clearTimebase.trans h.clearTimebase
  clearLines := k.clearLines.trans h.clearLines
  indicator := k.indicator.trans h.indicator
  timebase := k.timebase.trans h.timebase
  levels := fun i => (k.levels i).trans (h.levels i)
  safes := fun i => (k.safes i).trans (h.safes i)
  modes := fun i => (k.modes i).trans (h.modes i)
  queues := fun g empty => k.queues g (h.queues g empty)

theorem TripKept.law {s t : State} (h : TripKept s t) (hs : s.TripLaw) : t.TripLaw where
  list := by rw [h.state, h.records]; exact hs.list
  count := by rw [h.records]; exact hs.count
  halted := by rw [h.state, h.timebase]; exact hs.halted
  withdrawn := by rw [h.state, h.clearTimebase, h.clearLines]; exact hs.withdrawn
  indicator := by rw [h.state, h.indicator]; exact hs.indicator
  still := by rw [h.indicator, h.timebase]; exact hs.still
  levels := fun k i => by rw [h.levels i, h.safes i]; exact hs.levels (h.indicator ▸ k) i
  modes := fun k i => by rw [h.modes i]; exact hs.modes (h.indicator ▸ k) i
  queues := fun k g => h.queues g (hs.queues (h.indicator ▸ k) g)

/-- Lines and groups are left alone. -/
theorem TripKept.of_same {s t : State} (state : t.trip.state = s.trip.state) (records : t.trip.records = s.trip.records)
    (clearTimebase : t.transit.clearTimebase = s.transit.clearTimebase)
    (clearLines : t.transit.clearLines = s.transit.clearLines) (indicator : t.tripIndicator = s.tripIndicator)
    (timebase : t.timebase.state = s.timebase.state) (lines : t.lines = s.lines) (groups : t.groups = s.groups) :
    TripKept s t :=
  ⟨state, records, clearTimebase, clearLines, indicator, timebase, fun _ => by rw [lines], fun _ => by rw [lines],
    fun _ => by rw [lines], fun _ h => by rw [groups]; exact h⟩

/-- With the indicator clear the device is not tripped, and the law asks nothing of lines and timebase. -/
theorem State.TripLaw.free {s t : State} (hs : s.TripLaw) (clear : s.tripIndicator = false)
    (indicator : t.tripIndicator = s.tripIndicator) (state : t.trip.state = s.trip.state)
    (records : t.trip.records = s.trip.records) : t.TripLaw := by
  have not_tripped : t.trip.state ≠ .tripped := fun k => by
    have := hs.indicator (state ▸ k)
    rw [clear] at this; cases this
  have not_set : t.tripIndicator ≠ true := fun k => by rw [indicator, clear] at k; cases k
  exact ⟨by rw [state, records]; exact hs.list, by rw [records]; exact hs.count, fun k => absurd k not_tripped,
    fun k => absurd k not_tripped, fun k => absurd k not_tripped, fun k => absurd k not_set, fun k => absurd k not_set,
    fun k => absurd k not_set, fun k => absurd k not_set⟩

/-- What no operation of the timebase changes is enough while the indicator is clear. -/
theorem TickFrame.tripLaw {s t : State} (h : TickFrame s t) (hs : s.TripLaw)
    (still : s.tripIndicator = true → t.TripLaw) : t.TripLaw := by
  by_cases set : s.tripIndicator = true
  · exact still set
  · exact hs.free (Bool.not_eq_true _ ▸ set) h.tripIndicator (by rw [h.trip]) (by rw [h.trip])

/-! ### While the indicator is set -/

theorem State.expireOne_empty (s : State) (g : Fin 6) (empty : s.groups[g].queue = []) : s.expireOne g = s := by
  rw [State.expireOne, empty]; rfl

/-- With every queue empty there is no head to examine. -/
theorem State.headsExamined_empty (s : State) (empty : ∀ g : Fin 6, s.groups[g].queue = []) (which : Fin 6 → Bool) :
    s.headsExamined which = s :=
  foldl_id _ _ _ fun g _ => by split; exacts [s.examineHead_nil g (empty g), rfl]

/-- The indicator is set, no rise waits and no frame is in progress. -/
structure State.Frozen (s : State) : Prop where
  indicator : s.tripIndicator = true
  still     : s.timebase.state = .halted ∨ s.timebase.state = .stopped
  empty     : ∀ g : Fin 6, s.groups[g].queue = []

theorem State.TripLaw.frozen {s : State} (hs : s.TripLaw) (indicator : s.tripIndicator = true) : s.Frozen :=
  ⟨indicator, hs.still indicator, hs.queues indicator⟩

theorem State.Frozen.settleSync {s : State} (h : s.Frozen) : s.settleSync = s := by
  refine if_neg fun k => ?_
  rw [Bool.and_eq_true, beq_iff_eq] at k
  rcases h.still with state | state <;> rw [state] at k <;> cases k.2

theorem State.Frozen.takeAllClaims {s : State} (h : s.Frozen) :
    s.takeAllClaims = { s with transit := { s.transit with claims := [] } } :=
  foldl_id _ _ _ fun step _ =>
    State.takeClaimStep_indicator { s with transit := { s.transit with claims := [] } } h.indicator step

/-- A frozen line block has nothing for a tick to settle but to drop the claims and the examinations owed. -/
theorem State.Frozen.settleTick {s : State} (h : s.Frozen) :
    s.settleTick = { s with transit := { s.transit with claims := [], headOwed := 0#6 } } := by
  have examined := State.headsExamined_empty { s with transit := { s.transit with claims := [], headOwed := 0#6 } }
    h.empty fun g => s.transit.headOwed.getLsbD g.val
  unfold State.settleTick
  rw [h.settleSync, h.takeAllClaims]
  refine (congrArg (allGroups.foldl State.expireGroup) examined).trans ?_
  refine foldl_id _ _ _ fun g _ => foldl_id _ _ _ fun _ _ => ?_
  exact State.expireOne_empty { s with transit := { s.transit with claims := [], headOwed := 0#6 } } g (h.empty g)

/-- Ages alone advance: no queue holds an entry. -/
theorem State.advanceAges_tripKept (s : State) : TripKept s s.advanceAges := by
  have line (i : Fin 16) : s.advanceAges.lines[i] = s.lines[i].aged := by rw [s.advanceAges_lines, mapTable_fin]
  refine ⟨rfl, rfl, rfl, rfl, rfl, rfl, fun i => ?_, fun i => ?_, fun i => ?_, fun g empty => ?_⟩
  · rw [line i]; rfl
  · rw [line i]; rfl
  · rw [line i]; rfl
  · rw [s.advanceAges_groups, mapTable_fin, InterlockGroup.aged, empty]; rfl

/-- A tick of a frozen line block changes nothing that the law of the trip reads. -/
theorem State.Frozen.oneTick_tripKept {s : State} (h : s.Frozen) : TripKept s s.oneTick := by
  let t : State := { s with transit := { s.transit with claims := [], headOwed := 0#6 } }
  have settled : TripKept s t := .of_same rfl rfl rfl rfl rfl rfl rfl rfl
  have aged : TripKept t t.advanceAges := t.advanceAges_tripKept
  have examined : t.advanceAges.examineAtTick =
      { t.advanceAges with transit := { t.transit with headOwed := t.advanceAges.owedAtTick } } :=
    State.headsExamined_empty { t.advanceAges with
      transit := { t.transit with headOwed := t.advanceAges.owedAtTick } } (fun g => aged.queues g (h.empty g)) _
  have ticked : s.oneTick = t.advanceAges.examineAtTick.tickClock := by
    unfold State.oneTick
    rw [h.settleTick]
    refine State.timebaseTick_still ?_ _
    rw [examined]
    exact h.still.symm
  rw [ticked, examined]
  exact (settled.trans aged).trans (.of_same rfl rfl rfl rfl rfl rfl rfl rfl)

/-! ### Commands of the line block and the timebase -/

theorem State.oneTick_tripLaw (s : State) (hs : s.TripLaw) : s.oneTick.TripLaw :=
  s.oneTick_tickFrame.tripLaw hs fun set => (hs.frozen set).oneTick_tripKept.law hs

theorem State.settleSync_tripLaw (s : State) (hs : s.TripLaw) : s.settleSync.TripLaw :=
  s.settleSync_tickFrame.tripLaw hs fun set => by rw [(hs.frozen set).settleSync]; exact hs

theorem State.lineBlockTakesClaims_tripLaw (s : State) (hs : s.TripLaw) : s.lineBlockTakesClaims.TripLaw := by
  unfold State.lineBlockTakesClaims
  split
  · exact hs
  · rename_i step rest _
    let t : State := { s with transit := { s.transit with claims := rest } }
    have ht : t.TripLaw := TripKept.law (s := s) (.of_same rfl rfl rfl rfl rfl rfl rfl rfl) hs
    have frame := t.takeClaimStep_frame step
    by_cases set : s.tripIndicator = true
    · rw [show t.takeClaimStep step = t from t.takeClaimStep_indicator set step]; exact ht
    · exact ht.free (Bool.not_eq_true _ ▸ set) frame.tripIndicator (by rw [frame.trip]) (by rw [frame.trip])

theorem State.expireOne_tripLaw (s : State) (g : Fin 6) (hs : s.TripLaw) : (s.expireOne g).TripLaw :=
  (s.expireOne_moves g).tickFrame.tripLaw hs fun set => by
    rw [s.expireOne_empty g (hs.queues set g)]; exact hs

/-- A request refused while tripped meets a clear indicator where it is taken. -/
theorem State.linesTripped_iff (s : State) :
    s.linesTripped = true ↔ s.trip.state = .tripped ∨ s.tripIndicator = true := by
  rw [State.linesTripped, Bool.or_eq_true, s.tripped_iff]

theorem LineMoves.Frame.tickFrame {s t : State} (h : LineMoves.Frame s t) : TickFrame s t := by
  have transit := h.transit
  exact ⟨h.validator, h.tripIndicator, h.sampler, h.converter, h.ring, h.trip, h.enables, h.port, h.rstLow, h.pending,
    by rw [h.environment], by rw [h.environment], by rw [h.environment], by rw [transit], by rw [transit],
    by rw [transit], by rw [transit]⟩

/-- What no operation of the line block changes, the timebase included. -/
structure BlockFrame (s t : State) : Prop where
  tick     : TickFrame s t
  timebase : t.timebase = s.timebase

theorem BlockFrame.refl (s : State) : BlockFrame s s := ⟨.refl s, rfl⟩

theorem BlockFrame.trans {s t u : State} (h : BlockFrame s t) (k : BlockFrame t u) : BlockFrame s u :=
  ⟨h.tick.trans k.tick, k.timebase.trans h.timebase⟩

theorem LineMoves.Frame.blockFrame {s t : State} (h : LineMoves.Frame s t) : BlockFrame s t := ⟨h.tickFrame, h.timebase⟩

theorem State.setLine_blockFrame (s : State) (x : Fin 16) (l : Line) : BlockFrame s (s.setLine x l) :=
  ⟨by constructor <;> rfl, rfl⟩

theorem State.setLineConfig_blockFrame (s : State) : BlockFrame s s.setLineConfig.1 := by
  have taken (i : Fin 16) (polarity : Polarity) (rest safe : Level) :
      BlockFrame s (s.applyLineConfig i polarity rest safe) := by
    unfold State.applyLineConfig
    simp only
    split
    · exact (s.setLine_blockFrame i _).trans (State.moveLine_frame _ i rest).blockFrame
    · exact s.setLine_blockFrame i _
  unfold State.setLineConfig
  split
  · exact .refl s
  · split
    · exact .refl s
    · split
      · exact .refl s
      · split
        · exact .refl s
        · exact taken _ _ _ _

theorem State.applyMode_blockFrame (s : State) (i : Fin 16) (mode : LineMode) : BlockFrame s (s.applyMode i mode).1 := by
  have moded (m : LineMode) : BlockFrame s (s.setMode i m) := s.setLine_blockFrame i _
  have left (m : LineMode) (level : Level) : BlockFrame s (((s.setMode i m).removeWaiting i).moveLine i level) :=
    ((moded m).trans (State.removeWaiting_moves _ i).frame.blockFrame).trans (State.moveLine_frame _ i level).blockFrame
  unfold State.applyMode
  cases mode with
  | rest => exact left _ _
  | scheduled =>
    simp only
    split
    · exact (moded _).trans (State.moveLine_frame _ i _).blockFrame
    · exact moded _
  | forcedActive =>
    simp only [State.forceActive]
    split
    · exact moded _
    · split
      · exact ((moded _).trans (State.moveLine_frame _ i _).blockFrame).trans
          (State.removeWaiting_moves _ i).frame.blockFrame
      · exact .refl s
  | forcedInactive => exact left _ _

theorem State.setLineMode_blockFrame (s : State) : BlockFrame s s.setLineMode.1 := by
  unfold State.setLineMode
  split
  · exact .refl s
  · split
    · exact s.applyMode_blockFrame _ _
    · exact .refl s

theorem State.lineBlockTakesClaims_blockFrame (s : State) : BlockFrame s s.lineBlockTakesClaims := by
  unfold State.lineBlockTakesClaims
  split
  · exact .refl s
  · refine BlockFrame.trans ?_ (State.takeClaimStep_frame _ _).blockFrame
    exact ⟨by constructor <;> rfl, rfl⟩

/-- SET_LINE_CONFIG is refused while the indicator is set (R112). -/
theorem State.setLineConfig_tripLaw (s : State) (hs : s.TripLaw) : s.setLineConfig.1.TripLaw :=
  s.setLineConfig_blockFrame.tick.tripLaw hs fun set => by
    rw [State.setLineConfig, if_pos (s.linesTripped_iff.2 (.inr set))]; exact hs

/-- SET_LINE_MODE is refused while the indicator is set (R114). -/
theorem State.setLineMode_tripLaw (s : State) (hs : s.TripLaw) : s.setLineMode.1.TripLaw :=
  s.setLineMode_blockFrame.tick.tripLaw hs fun set => by
    rw [State.setLineMode, if_pos (s.linesTripped_iff.2 (.inr set))]; exact hs

/-- SET_GROUP changes no level, no mode and no safe level, and empties a queue (R119). -/
theorem State.setGroup_tripKept (s : State) : TripKept s s.setGroup.1 := by
  have taken (g : Fin 6) (policy : Policy) (proposed : List (Fin 16)) (gap limit : Nat) :
      TripKept s (s.applyGroup g policy proposed gap limit) := by
    refine ⟨rfl, rfl, rfl, rfl, rfl, rfl, fun i => ?_, fun i => ?_, fun i => ?_, fun k empty => ?_⟩
    · rw [State.applyGroup, tabulate_fin]
    · rw [State.applyGroup, tabulate_fin]
    · rw [State.applyGroup, tabulate_fin]
    · have groups : (s.applyGroup g policy proposed gap limit).groups = s.groups.set g { s.groups[g] with
          gap := gap, policy := policy, limit := limit, queue := [] } := rfl
      rw [groups, set_fin]
      split
      exacts [rfl, empty]
  unfold State.setGroup
  split
  · exact .refl s
  · split
    · exact .refl s
    · split
      · simp only
        split
        · exact .refl s
        · split
          · exact .refl s
          · split
            · exact .refl s
            · exact taken _ _ _ _ _
      · exact .refl s

/-- Fall ages are no part of the law. -/
theorem State.prescalerNotice_tripKept (s : State) : TripKept s s.prescalerNotice := by
  have line (i : Fin 16) : s.prescalerNotice.lines[i] = { s.lines[i] with age := 0 } := by
    rw [s.prescalerNotice_lines, mapTable_fin]
  exact ⟨rfl, rfl, rfl, rfl, rfl, rfl, fun i => by rw [line i], fun i => by rw [line i], fun i => by rw [line i],
    fun _ h => h⟩

theorem State.setTimebase_tripKept (s : State) : TripKept s s.setTimebase.1 := by
  unfold State.setTimebase
  split
  · exact .refl s
  · split
    · exact .refl s
    · unfold State.applyTimebase
      simp only
      split
      · exact .of_same rfl rfl rfl rfl rfl rfl rfl rfl
      · refine TripKept.trans ?_ (State.prescalerNotice_tripKept _)
        exact .of_same rfl rfl rfl rfl rfl rfl rfl rfl

/-- START is refused while the indicator is set (R68). -/
theorem State.startTimebase_tripLaw (s : State) (hs : s.TripLaw) : s.startTimebase.1.TripLaw := by
  unfold State.startTimebase
  split
  · exact hs
  · split
    · exact hs
    · split
      · exact hs
      · rename_i clear
        have free := Bool.not_eq_true _ ▸ clear
        simp only
        split
        · exact hs.free free rfl rfl rfl
        · exact hs.free free rfl rfl rfl

theorem State.stopTimebase_tripLaw (s : State) (hs : s.TripLaw) : s.stopTimebase.1.TripLaw := by
  -- The states that STOP leaves are none in which the indicator is set (R132).
  have left (t : State) (frame : TickFrame s t) (moving : s.timebase.state ≠ .halted ∧ s.timebase.state ≠ .stopped) :
      t.TripLaw := frame.tripLaw hs fun set => by
    rcases hs.still set with state | state
    · exact absurd state moving.1
    · exact absurd state moving.2
  unfold State.stopTimebase
  split
  case h_1 state => exact left _ (by constructor <;> rfl) (by rw [state]; decide)
  case h_2 state => exact left _ s.becomeStopped_tickFrame (by rw [state]; decide)
  case h_3 state => exact left _ s.becomeStopped_tickFrame (by rw [state]; decide)
  all_goals exact hs

/-! ### The trip and its end (R178, R184) -/

/-- While ARMED with the list empty and the indicator clear the law asks nothing more. -/
theorem State.tripLaw_of_armed {t : State} (state : t.trip.state = .armed) (records : t.trip.records = [])
    (indicator : t.tripIndicator = false) : t.TripLaw := by
  have not_tripped : t.trip.state ≠ .tripped := by rw [state]; decide
  have not_set : t.tripIndicator ≠ true := by rw [indicator]; decide
  exact ⟨iff_of_true state records, by rw [records]; exact Nat.zero_le _, fun k => absurd k not_tripped,
    fun k => absurd k not_tripped, fun k => absurd k not_tripped, fun k => absurd k not_set, fun k => absurd k not_set,
    fun k => absurd k not_set, fun k => absurd k not_set⟩

/-- The clear notice under way says that the device is not tripped (R184). -/
theorem State.TripLaw.armed_of_clear {s : State} (hs : s.TripLaw)
    (notice : s.transit.clearTimebase = true ∨ s.transit.clearLines = true) : s.trip.state = .armed := by
  cases state : s.trip.state with
  | armed => rfl
  | tripped =>
    obtain ⟨timebase, lines⟩ := hs.withdrawn state
    rw [timebase, lines] at notice
    rcases notice with k | k <;> cases k

theorem State.timebaseTakesClear_tripLaw (s : State) (hs : s.TripLaw) : s.timebaseTakesClear.TripLaw := by
  unfold State.timebaseTakesClear
  split
  · rename_i notice
    have armed := hs.armed_of_clear (.inl notice)
    have not_tripped : s.trip.state ≠ .tripped := by rw [armed]; decide
    simp only
    split
    · exact ⟨hs.list, hs.count, fun k => absurd k not_tripped, fun k => absurd k not_tripped,
        fun k => absurd k not_tripped, fun _ => .inr rfl, hs.levels, hs.modes, hs.queues⟩
    · exact ⟨hs.list, hs.count, hs.halted, fun k => absurd k not_tripped, hs.indicator, hs.still, hs.levels, hs.modes,
        hs.queues⟩
  · exact hs

theorem State.lineBlockTakesClear_tripLaw (s : State) (hs : s.TripLaw) : s.lineBlockTakesClear.TripLaw := by
  unfold State.lineBlockTakesClear
  split
  · rename_i notice
    have armed := hs.armed_of_clear (.inr notice)
    exact State.tripLaw_of_armed armed (hs.list.1 armed) rfl
  · exact hs

/-- A source taken while ARMED brings the law about; one taken while TRIPPED adds a record where there is room. -/
theorem State.takeSource_tripLaw (s : State) (sent : SentSource) (hs : s.TripLaw) : (s.takeSource sent).TripLaw := by
  unfold State.takeSource
  split
  · have line (i : Fin 16) : (s.tripDevice sent).lines[i] = s.lines[i].safe := mapTable_fin _ _ i
    refine ⟨iff_of_false (fun k => by cases k) (List.cons_ne_nil _ _), Nat.succ_le_succ (Nat.zero_le _), fun _ => rfl,
      fun _ => ⟨rfl, rfl⟩, fun _ => rfl, fun _ => .inl rfl, fun _ i => ?_, fun _ i => ?_, fun _ g => ?_⟩
    · rw [line i]; rfl
    · rw [line i, Line.safe]
      simp only
      split
      exacts [.inr rfl, .inl rfl]
    · exact congrArg InterlockGroup.queue (mapTable_fin s.groups (fun r => { r with queue := [] }) g)
  · rename_i tripped
    have some_record : s.trip.records ≠ [] := fun empty => by
      rw [hs.list.2 empty] at tripped; cases tripped
    unfold State.recordSecondary
    split
    · rename_i room
      refine ⟨iff_of_false (by simp [tripped]) (by simp), ?_, hs.halted, hs.withdrawn, hs.indicator, hs.still, hs.levels,
        hs.modes, hs.queues⟩
      rw [List.length_append]
      exact room
    · exact ⟨hs.list, hs.count, hs.halted, hs.withdrawn, hs.indicator, hs.still, hs.levels, hs.modes, hs.queues⟩

theorem State.controllerTakes_tripLaw (s : State) (source : TripSource) (hs : s.TripLaw) :
    (s.controllerTakes source).TripLaw := by
  unfold State.controllerTakes
  split
  · exact hs
  · exact State.takeSource_tripLaw _ _ (TripKept.law (s := s) (.of_same rfl rfl rfl rfl rfl rfl rfl rfl) hs)

theorem State.clearTrip_tripLaw (s : State) (hs : s.TripLaw) : s.clearTrip.1.TripLaw := by
  unfold State.clearTrip
  split
  · exact hs
  · split
    · exact hs
    · exact ⟨iff_of_true rfl rfl, Nat.zero_le _, nofun, nofun, nofun, hs.still, hs.levels,
        hs.modes, hs.queues⟩

/-! ### Soft reset (R87, R135) -/

theorem Timebase.softReset_state (b : Timebase) :
    b.softReset.state = if b.state = .halted then .halted else .stopped := by
  unfold Timebase.softReset
  simp only
  split
  · rename_i halted; exact halted
  · rfl

/-- A line the indicator holds at its safe level stays there. -/
theorem Line.softReset_held (l : Line) : l.softReset true = { l with mode := .rest } := rfl

theorem State.softReset_tripLaw (s : State) (hs : s.TripLaw) : s.softReset.TripLaw := by
  rw [State.softReset_eq]
  have halts (h : s.timebase.state = .halted) :
      (Timebase.softReset { s.timebase with skipCount := 0, missCount := 0 }).state = .halted := by
    rw [Timebase.softReset_state, if_pos h]
  have held (set : s.tripIndicator = true) (i : Fin 16) :
      (tabulate fun j : Fin 16 => s.lines[j].softReset s.tripIndicator)[i] = { s.lines[i] with mode := .rest } := by
    rw [tabulate_fin, set, Line.softReset_held]
  refine ⟨hs.list, hs.count, fun k => halts (hs.halted k), hs.withdrawn, hs.indicator, fun _ => ?_, fun set i => ?_,
    fun set i => ?_, fun _ g => ?_⟩
  · exact Timebase.softReset_stands _
  · rw [held set i]; exact hs.levels set i
  · rw [held set i]; exact .inl rfl
  · rw [tabulate_fin]

end Sys2Proof.Machine

/-! The capacities: the conversion queue and the converter, the result ring, and the counters outside the line block. -/

namespace Sys2Proof.Machine

/-! ### The laws, block by block -/

/-- The ring's law and the ranges of the counters outside the line block (R160, R161, R169, R202). -/
structure State.StoreLaw (s : State) : Prop where
  ring     : s.RingLaw
  skip     : s.timebase.skipCount ≤ 65535
  miss     : s.timebase.missCount ≤ 255
  drops    : ∀ n : Fin 8, s.sampler.slots[n].drops ≤ 255
  lost     : s.ring.lost ≤ 255
  overflow : s.trip.overflow ≤ 255

/-- The counters' law is that of the line block's counters and that of the others. -/
theorem State.capacities_iff (s : State) :
    s.SamplingLaw ∧ s.RingLaw ∧ s.CountersLaw ↔ (s.SamplingLaw ∧ s.StoreLaw) ∧ s.LineCounters := by
  constructor
  · intro ⟨sampling, ring, counters⟩
    exact ⟨⟨sampling, ring, counters.skip, counters.miss, counters.drops, counters.lost, counters.overflow⟩,
      counters.ages, counters.deferred, counters.abandoned⟩
  · intro ⟨⟨sampling, store⟩, counters⟩
    exact ⟨sampling, store.ring, counters.ages, store.skip, store.miss, counters.deferred, counters.abandoned, store.drops,
      store.lost, store.overflow⟩

/-- What the store's law reads is the same. -/
structure StoreKept (s t : State) : Prop where
  slots    : t.sampler.slots = s.sampler.slots
  ring     : t.ring = s.ring
  overflow : t.trip.overflow = s.trip.overflow
  skip     : t.timebase.skipCount = s.timebase.skipCount
  miss     : t.timebase.missCount = s.timebase.missCount

theorem StoreKept.law {s t : State} (h : StoreKept s t) (hs : s.StoreLaw) : t.StoreLaw where
  ring := by
    obtain ⟨count, least, most, values⟩ := hs.ring
    exact ⟨by rw [h.ring]; exact count, by rw [h.ring]; exact least, by rw [h.ring]; exact most,
      by rw [h.ring]; exact values⟩
  skip := by rw [h.skip]; exact hs.skip
  miss := by rw [h.miss]; exact hs.miss
  drops := by rw [h.slots]; exact hs.drops
  lost := by rw [h.ring]; exact hs.lost
  overflow := by rw [h.overflow]; exact hs.overflow

/-- What both laws read is the same. -/
structure CapacityKept (s t : State) : Prop where
  queue : t.sampler.queue = s.sampler.queue
  state : t.converter.state = s.converter.state
  trim  : t.converter.trim = s.converter.trim
  store : StoreKept s t

theorem State.SamplingLaw.congr {s t : State} (hs : s.SamplingLaw) (queue : t.sampler.queue = s.sampler.queue)
    (state : t.converter.state = s.converter.state) (trim : t.converter.trim = s.converter.trim) : t.SamplingLaw :=
  ⟨by rw [queue]; exact hs.count, by rw [state, queue]; exact hs.served, by rw [trim]; exact hs.trim,
    by rw [state]; exact hs.search⟩

theorem CapacityKept.law {s t : State} (h : CapacityKept s t) (hs : s.SamplingLaw ∧ s.StoreLaw) :
    t.SamplingLaw ∧ t.StoreLaw :=
  ⟨hs.1.congr h.queue h.state h.trim, h.store.law hs.2⟩

theorem CapacityKept.refl (s : State) : CapacityKept s s := ⟨rfl, rfl, rfl, rfl, rfl, rfl, rfl, rfl⟩

theorem CapacityKept.trans {s t u : State} (h : CapacityKept s t) (k : CapacityKept t u) : CapacityKept s u :=
  ⟨k.queue.trans h.queue, k.state.trans h.state, k.trim.trans h.trim, k.store.slots.trans h.store.slots,
    k.store.ring.trans h.store.ring, k.store.overflow.trans h.store.overflow, k.store.skip.trans h.store.skip,
    k.store.miss.trans h.store.miss⟩

theorem CapacityKept.of_same {s t : State} (sampler : t.sampler = s.sampler) (converter : t.converter = s.converter)
    (ring : t.ring = s.ring) (trip : t.trip = s.trip) (skip : t.timebase.skipCount = s.timebase.skipCount)
    (miss : t.timebase.missCount = s.timebase.missCount) : CapacityKept s t :=
  ⟨by rw [sampler], by rw [converter], by rw [converter], by rw [sampler], ring, by rw [trip], skip, miss⟩

theorem State.setFlagIf_capacityKept (s : State) (c : Bool) (f : Flag) : CapacityKept s (s.setFlagIf c f) := by
  unfold State.setFlagIf; split <;> exact .of_same rfl rfl rfl rfl rfl rfl

theorem State.sendSource_capacityKept (s : State) (c : Bool) (source : TripSource) :
    CapacityKept s (if c then s.sendSource source else s) := by
  split <;> exact .of_same rfl rfl rfl rfl rfl rfl

/-! ### The converter (R142, R145 to R152) -/

/-- A converter that serves a queue of at most 4 requests keeps the law, whatever it did before (R145). -/
theorem State.serveQueue_sampling (s : State) (count : s.sampler.queue.length ≤ 4) (trim : s.converter.trim ≤ 31) :
    s.serveQueue.SamplingLaw := by
  cases queue : s.sampler.queue with
  | nil =>
    rw [s.serveQueue_empty queue]
    exact ⟨count, fun _ => queue, trim, trivial⟩
  | cons r rest =>
    rw [s.serveQueue_takes queue]
    refine ⟨?_, nofun, trim, trivial⟩
    rw [queue, List.length_cons] at count
    exact Nat.le_of_succ_le count

theorem State.serveQueue_storeKept (s : State) : StoreKept s s.serveQueue := by
  unfold State.serveQueue; split <;> constructor <;> rfl

/-- A request enters a queue with room (R142). -/
theorem State.placeRequest_sampling (s : State) (slot : Fin 8) (origin : Origin) (hs : s.SamplingLaw)
    (room : ¬s.queueFull = true) : (s.placeRequest slot origin).SamplingLaw := by
  have count : s.sampler.queue.length < 4 := by rwa [s.queueFull_iff, Nat.not_le] at room
  unfold State.placeRequest
  simp only
  split
  · refine State.serveQueue_sampling _ ?_ hs.trim
    rw [List.length_append]
    exact count
  · rename_i busy
    refine ⟨?_, fun idle => absurd idle busy, hs.trim, hs.search⟩
    rw [List.length_append]
    exact count

theorem State.placeRequest_storeKept (s : State) (slot : Fin 8) (origin : Origin) :
    StoreKept s (s.placeRequest slot origin) := by
  unfold State.placeRequest
  simp only
  split
  · have served := State.serveQueue_storeKept { s with sampler := { s.sampler with
      queue := s.sampler.queue ++ [⟨slot, s.sampler.slots[slot].channel, origin, s.now⟩] } }
    exact ⟨served.slots, served.ring, served.overflow, served.skip, served.miss⟩
  · constructor <;> rfl

theorem State.setSlotRecord_storeLaw (s : State) (slot : Fin 8) (r : Slot) (small : r.drops ≤ 255) (hs : s.StoreLaw) :
    (s.setSlotRecord slot r).StoreLaw :=
  ⟨⟨hs.ring.count, hs.ring.least, hs.ring.most, hs.ring.values⟩, hs.skip, hs.miss,
    forall_set (P := fun r : Slot => r.drops ≤ 255) (i := slot) hs.drops small rfl, hs.lost, hs.overflow⟩

theorem State.takeTag_capacity (s : State) (t : SampleTag) (hs : s.SamplingLaw ∧ s.StoreLaw) :
    (s.takeTag t).SamplingLaw ∧ (s.takeTag t).StoreLaw := by
  unfold State.takeTag
  split
  · exact ⟨hs.1.congr rfl rfl rfl, StoreKept.law (by constructor <;> rfl)
      (s.setSlotRecord_storeLaw t.slot _ (bump8_le _) hs.2)⟩
  · rename_i room
    exact ⟨s.placeRequest_sampling _ _ hs.1 room, (s.placeRequest_storeKept _ _).law hs.2⟩

theorem State.samplerTakesTag_capacity (s : State) (hs : s.SamplingLaw ∧ s.StoreLaw) :
    s.samplerTakesTag.SamplingLaw ∧ s.samplerTakesTag.StoreLaw := by
  unfold State.samplerTakesTag
  split
  · exact hs
  · exact State.takeTag_capacity _ _ (CapacityKept.law (s := s) (.of_same rfl rfl rfl rfl rfl rfl) hs)

theorem State.takeTagsOf_capacity (s : State) (step : Nat) (hs : s.SamplingLaw ∧ s.StoreLaw) :
    (s.takeTagsOf step).SamplingLaw ∧ (s.takeTagsOf step).StoreLaw := by
  have folded (tags : List SampleTag) (t : State) (ht : t.SamplingLaw ∧ t.StoreLaw) :
      (tags.foldl State.takeTag t).SamplingLaw ∧ (tags.foldl State.takeTag t).StoreLaw := by
    induction tags generalizing t with
    | nil => exact ht
    | cons tag rest ih => exact ih _ (t.takeTag_capacity tag ht)
  exact folded _ _ (CapacityKept.law (s := s) (.of_same rfl rfl rfl rfl rfl rfl) hs)

/-- Emptied, the path has no request and an IDLE converter (R155). -/
theorem State.flushSampling_capacity (s : State) (hs : s.SamplingLaw ∧ s.StoreLaw) :
    s.flushSampling.SamplingLaw ∧ s.flushSampling.StoreLaw :=
  ⟨⟨Nat.zero_le _, fun _ => rfl, hs.1.trim, trivial⟩, StoreKept.law (s := s) (by constructor <;> rfl) hs.2⟩

theorem State.samplingTakesNotice_capacity (s : State) (hs : s.SamplingLaw ∧ s.StoreLaw) :
    s.samplingTakesNotice.SamplingLaw ∧ s.samplingTakesNotice.StoreLaw := by
  unfold State.samplingTakesNotice
  split
  · exact hs
  · rename_i cause rest _
    simp only
    refine State.flushSampling_capacity _ ?_
    cases cause with
    | none => exact CapacityKept.law (s := s) (.of_same rfl rfl rfl rfl rfl rfl) hs
    | some step =>
      exact CapacityKept.law (s := s.takeTagsOf step) (.of_same rfl rfl rfl rfl rfl rfl) (s.takeTagsOf_capacity step hs)

theorem State.sampleNow_capacity (s : State) (hs : s.SamplingLaw ∧ s.StoreLaw) :
    s.sampleNow.1.SamplingLaw ∧ s.sampleNow.1.StoreLaw := by
  unfold State.sampleNow
  split
  · exact hs
  · split
    · exact hs
    · rename_i room
      exact ⟨s.placeRequest_sampling _ _ hs.1 room, (s.placeRequest_storeKept _ _).law hs.2⟩

/-! ### The ring (R160 to R169) -/

/-- A record appended to a full ring takes the place of the head (R163). -/
theorem State.append_ringLaw (s : State) (slot : Fin 8) (channel : Fin 9) (origin : Origin) (value wait : Nat)
    (small : value ≤ 4095) (hs : s.SamplingLaw ∧ s.StoreLaw) :
    (s.append slot channel origin value wait).SamplingLaw ∧ (s.append slot channel origin value wait).StoreLaw := by
  obtain ⟨sampling, store⟩ := hs
  unfold State.append
  simp only
  generalize hfull : decide (Config.ringCapacity ≤ s.ring.records.length) = full
  refine (State.setFlagIf_capacityKept _ _ _).law ((State.sendSource_capacityKept _ _ _).law
    ((State.setFlagIf_capacityKept _ _ _).law ⟨sampling.congr rfl rfl rfl, ⟨⟨?_, store.ring.least, store.ring.most, ?_⟩,
      store.skip, store.miss, store.drops, ?_, store.overflow⟩⟩))
  · have count := store.ring.count
    rw [List.length_append]
    cases full with
    | true => simp only [if_true, List.length_drop, List.length_singleton]; omega
    | false =>
      have room := of_decide_eq_false hfull
      simp only [Config.ringCapacity, Bool.false_eq_true, if_false, List.length_singleton] at room ⊢
      omega
  · intro r hr
    rcases List.mem_append.1 hr with hr | hr
    · cases full with
      | true => exact store.ring.values r (List.mem_of_mem_drop hr)
      | false => exact store.ring.values r hr
    · rw [List.mem_singleton.1 hr]; exact small
  · cases full with
    | true => exact bump8_le _
    | false => exact store.lost

theorem State.readHead_storeLaw (s : State) (hs : s.StoreLaw) : s.readHead.StoreLaw := by
  obtain ⟨⟨count, least, most, values⟩, skip, miss, drops, lost, overflow⟩ := hs
  unfold State.readHead
  split
  · exact ⟨⟨count, least, most, values⟩, skip, miss, drops, lost, overflow⟩
  · rename_i r rest records
    rw [records] at count values
    exact ⟨⟨Nat.le_of_succ_le count, least, most, fun x hx => values x (List.mem_cons_of_mem _ hx)⟩, skip, miss, drops,
      lost, overflow⟩

theorem State.readHead_capacity (s : State) (hs : s.SamplingLaw ∧ s.StoreLaw) :
    s.readHead.SamplingLaw ∧ s.readHead.StoreLaw := by
  refine ⟨?_, s.readHead_storeLaw hs.2⟩
  unfold State.readHead
  split <;> exact hs.1.congr rfl rfl rfl

theorem State.setRing_capacity (s : State) (hs : s.SamplingLaw ∧ s.StoreLaw) :
    s.setRing.1.SamplingLaw ∧ s.setRing.1.StoreLaw := by
  obtain ⟨sampling, ⟨count, least, most, values⟩, skip, miss, drops, lost, overflow⟩ := hs
  unfold State.setRing
  simp only
  split
  · exact ⟨sampling, ⟨count, least, most, values⟩, skip, miss, drops, lost, overflow⟩
  · rename_i range
    rw [not_or, Nat.not_lt] at range
    exact (State.setFlagIf_capacityKept _ _ _).law ⟨sampling.congr rfl rfl rfl,
      ⟨count, Nat.one_le_iff_ne_zero.2 range.1, range.2, values⟩, skip, miss, drops, lost, overflow⟩

/-! ### Conversions and calibration (R147, R150 to R154) -/

theorem State.startTrial_capacity (s : State) (kept bit : Nat) (search : kept + 2 ^ (bit + 1) ≤ 32)
    (hs : s.SamplingLaw ∧ s.StoreLaw) : (s.startTrial kept bit).SamplingLaw ∧ (s.startTrial kept bit).StoreLaw :=
  ⟨⟨hs.1.count, nofun, hs.1.trim, search⟩, StoreKept.law (s := s) (by constructor <;> rfl) hs.2⟩

theorem State.serveQueue_capacity (s : State) (hs : s.SamplingLaw ∧ s.StoreLaw) :
    s.serveQueue.SamplingLaw ∧ s.serveQueue.StoreLaw :=
  ⟨s.serveQueue_sampling hs.1.count hs.1.trim, s.serveQueue_storeKept.law hs.2⟩

theorem State.completeConversion_capacity (s : State) (hs : s.SamplingLaw ∧ s.StoreLaw) :
    s.completeConversion.SamplingLaw ∧ s.completeConversion.StoreLaw := by
  have appended (c : InConversion) := s.append_ringLaw c.request.slot c.request.channel c.request.origin
    (corrected c.raw s.converter.trim) c.wait (corrected_le _ _) hs
  unfold State.completeConversion
  split
  · exact State.serveQueue_capacity _ (appended _)
  · exact State.startTrial_capacity _ 0 4 (by decide) (appended _)
  · exact hs
  · exact hs

theorem State.completeTrial_capacity (s : State) (hs : s.SamplingLaw ∧ s.StoreLaw) :
    s.completeTrial.SamplingLaw ∧ s.completeTrial.StoreLaw := by
  unfold State.completeTrial
  split
  · rename_i kept bit raw state
    have search : kept + 2 ^ (bit + 1) ≤ 32 := by have := hs.1.search; rw [state] at this; exact this
    split
    · have trim : keptAfter kept 0 raw ≤ 31 := Nat.le_of_succ_le_succ (keptAfter_reached kept 0 raw search)
      refine ⟨State.serveQueue_sampling _ hs.1.count trim, (State.serveQueue_storeKept _).law ?_⟩
      exact StoreKept.law (s := s) (by constructor <;> rfl) hs.2
    · rename_i b
      exact s.startTrial_capacity _ b (keptAfter_reached kept (b + 1) raw search) hs
  · exact hs
  · exact hs
  · exact hs

theorem State.calibrate_capacity (s : State) (hs : s.SamplingLaw ∧ s.StoreLaw) :
    s.calibrate.1.SamplingLaw ∧ s.calibrate.1.StoreLaw := by
  unfold State.calibrate
  split
  · exact s.startTrial_capacity 0 4 (by decide) hs
  · exact ⟨⟨hs.1.count, nofun, hs.1.trim, trivial⟩, StoreKept.law (s := s) (by constructor <;> rfl) hs.2⟩
  · exact hs
  · exact hs

theorem State.cancelCal_capacity (s : State) (hs : s.SamplingLaw ∧ s.StoreLaw) :
    s.cancelCal.1.SamplingLaw ∧ s.cancelCal.1.StoreLaw := by
  have reported : CapacityKept s (s.setCalReport .cancelled) := ⟨rfl, rfl, rfl, rfl, rfl, rfl, rfl, rfl⟩
  unfold State.cancelCal
  split
  · exact State.serveQueue_capacity _ (reported.law hs)
  · exact ⟨⟨hs.1.count, nofun, hs.1.trim, trivial⟩, StoreKept.law (s := s) (by constructor <;> rfl) hs.2⟩
  · exact hs
  · exact hs

/-- SET_SLOT keeps the drop counter (R138). -/
theorem State.setSlot_capacity (s : State) (hs : s.SamplingLaw ∧ s.StoreLaw) :
    s.setSlot.1.SamplingLaw ∧ s.setSlot.1.StoreLaw := by
  unfold State.setSlot
  split
  · exact hs
  · exact ⟨hs.1.congr rfl rfl rfl, s.setSlotRecord_storeLaw _ _ (hs.2.drops _) hs.2⟩

/-! ### The trip controller's overflow counter and the resets -/

theorem State.takeSource_capacity (s : State) (sent : SentSource) (hs : s.SamplingLaw ∧ s.StoreLaw) :
    (s.takeSource sent).SamplingLaw ∧ (s.takeSource sent).StoreLaw := by
  unfold State.takeSource
  split
  · exact CapacityKept.law (s := s) ⟨rfl, rfl, rfl, rfl, rfl, rfl, rfl, rfl⟩ hs
  · unfold State.recordSecondary
    split
    · exact CapacityKept.law (s := s) ⟨rfl, rfl, rfl, rfl, rfl, rfl, rfl, rfl⟩ hs
    · obtain ⟨sampling, ⟨count, least, most, values⟩, skip, miss, drops, lost, _⟩ := hs
      exact ⟨sampling.congr rfl rfl rfl, ⟨count, least, most, values⟩, skip, miss, drops, lost, bump8_le _⟩

theorem State.controllerTakes_capacity (s : State) (source : TripSource) (hs : s.SamplingLaw ∧ s.StoreLaw) :
    (s.controllerTakes source).SamplingLaw ∧ (s.controllerTakes source).StoreLaw := by
  unfold State.controllerTakes
  split
  · exact hs
  · exact State.takeSource_capacity _ _ (CapacityKept.law (s := s) (.of_same rfl rfl rfl rfl rfl rfl) hs)

/-- CLEAR_COUNTERS zeroes what is counted and leaves the ring's records (R202). -/
theorem State.zeroCounters_capacity (s : State) (hs : s.SamplingLaw ∧ s.StoreLaw) :
    s.zeroCounters.SamplingLaw ∧ s.zeroCounters.StoreLaw := by
  obtain ⟨sampling, ⟨count, least, most, values⟩, _, _, _, _, _⟩ := hs
  refine ⟨sampling.congr rfl rfl rfl, ⟨count, least, most, values⟩, Nat.zero_le _, Nat.zero_le _, fun n => ?_,
    Nat.zero_le _, Nat.zero_le _⟩
  have slots : s.zeroCounters.sampler.slots = mapTable s.sampler.slots fun r => { r with drops := 0 } := rfl
  rw [slots, mapTable_fin]
  exact Nat.zero_le _

theorem State.softReset_capacity (s : State) (hs : s.SamplingLaw ∧ s.StoreLaw) :
    s.softReset.SamplingLaw ∧ s.softReset.StoreLaw := by
  rw [State.softReset_eq, Timebase.softReset_eq]
  refine ⟨⟨Nat.zero_le _, fun _ => rfl, hs.1.trim, trivial⟩,
    ⟨Nat.zero_le _, hs.2.ring.least, hs.2.ring.most, fun _ hr => by cases hr⟩, Nat.zero_le _, Nat.zero_le _, fun n => ?_,
    Nat.zero_le _, Nat.zero_le _⟩
  rw [tabulate_fin]
  exact Nat.zero_le _

/-- The power-on values meet both laws (R86, R157, R170, R188). -/
theorem State.capacity_of_powerOn {t : State} (sampler : t.sampler = State.reset.sampler)
    (converter : t.converter = State.reset.converter) (ring : t.ring = State.reset.ring)
    (trip : t.trip = State.reset.trip) (skip : t.timebase.skipCount = 0) (miss : t.timebase.missCount = 0) :
    t.SamplingLaw ∧ t.StoreLaw := by
  obtain ⟨_, _, _, _, _, _, _, _, _, sampling, reset_ring, counters⟩ := resetMeetsEveryLaw
  exact CapacityKept.law (.of_same sampler converter ring trip skip miss)
    ((State.reset.capacities_iff).1 ⟨sampling, reset_ring, counters⟩).1

/-! ### The timebase's counters (R80, R82) -/

/-- The skip and miss counters are in their ranges. -/
def Timebase.Counts (b : Timebase) : Prop := b.skipCount ≤ 65535 ∧ b.missCount ≤ 255

/-- Both counters are as they were. -/
def CountsKept (s t : State) : Prop :=
  t.timebase.skipCount = s.timebase.skipCount ∧ t.timebase.missCount = s.timebase.missCount

theorem CountsKept.trans {s t u : State} (h : CountsKept s t) (k : CountsKept t u) : CountsKept s u :=
  ⟨k.1.trans h.1, k.2.trans h.2⟩

theorem CountsKept.counts {s t : State} (h : CountsKept s t) (hs : s.timebase.Counts) : t.timebase.Counts := by
  unfold Timebase.Counts; rw [h.1, h.2]; exact hs

theorem LineMoves.Frame.countsKept {s t : State} (h : LineMoves.Frame s t) : CountsKept s t := by
  unfold CountsKept; rw [h.timebase]; exact ⟨rfl, rfl⟩

theorem State.becomeStopped_countsKept (s : State) : CountsKept s s.becomeStopped :=
  (State.takeAllClaims_frame { s with
    timebase := { s.timebase with state := .stopped }, transit := { s.transit with syncExpiry := false } }).countsKept

theorem State.boundary_countsKept (s : State) : CountsKept s s.boundary := by
  unfold State.boundary
  simp only
  rw [s.frameEnded_eq]
  split
  · exact State.becomeStopped_countsKept s.frameEnded
  · exact ⟨rfl, rfl⟩

theorem State.countSkipped_counts (s : State) (hs : s.timebase.Counts) : s.countSkipped.timebase.Counts := by
  rw [State.countSkipped_eq]
  exact ⟨Nat.min_le_right _ _, hs.2⟩

theorem State.timebaseTick_counts (s : State) (arrival : Bool) (hs : s.timebase.Counts) :
    (s.timebaseTick arrival).timebase.Counts := by
  have arrives : s.boundaryByArrival.timebase.Counts :=
    (State.boundary_countsKept s.countSkipped).counts (s.countSkipped_counts hs)
  have next : s.nextOffset.timebase.Counts := by
    unfold State.nextOffset; simp only; split <;> exact hs
  have walks : s.walkTick.timebase.Counts := by
    unfold State.walkTick; split
    exacts [next, s.boundary_countsKept.counts hs]
  have holds : s.holdTick.timebase.Counts := by unfold State.holdTick; split <;> exact hs
  unfold State.timebaseTick
  split
  exacts [hs, hs, hs, hs, arrives, walks, arrives, walks, s.boundary_countsKept.counts hs, holds]

theorem State.settleSync_counts (s : State) (hs : s.timebase.Counts) : s.settleSync.timebase.Counts := by
  unfold State.settleSync
  split
  · unfold State.syncExpires
    split
    · exact hs
    · exact (State.boundary_countsKept
        { s with timebase := { s.timebase with missCount := bump8 s.timebase.missCount } }).counts ⟨hs.1, bump8_le _⟩
  · exact hs

theorem State.oneTick_counts (s : State) (hs : s.timebase.Counts) : s.oneTick.timebase.Counts := by
  have claims : CountsKept s.settleSync s.settleSync.takeAllClaims := (State.takeAllClaims_frame _).countsKept
  have owed (t : State) : CountsKept t t.examineOwed := t.examineOwed_moves.frame.countsKept
  have expired : CountsKept s.settleSync.takeAllClaims.examineOwed s.settleTick :=
    LineMoves.Frame.countsKept (.foldl _ (fun t g => (t.expireGroup_moves g).frame) _ _)
  have examined (t : State) : CountsKept t t.advanceAges.examineAtTick := (State.examineAtTick_moves _).frame.countsKept
  have begun := ((claims.trans (owed _)).trans expired).trans (examined _)
  exact State.timebaseTick_counts _ _ (begun.counts (s.settleSync_counts hs))

/-- What no operation of the timebase changes, and its own counters in range. -/
theorem TickFrame.capacity {s t : State} (h : TickFrame s t) (counts : s.timebase.Counts → t.timebase.Counts)
    (hs : s.SamplingLaw ∧ s.StoreLaw) : t.SamplingLaw ∧ t.StoreLaw := by
  obtain ⟨sampling, store⟩ := hs
  obtain ⟨skip, miss⟩ := counts ⟨store.skip, store.miss⟩
  obtain ⟨count, least, most, values⟩ := store.ring
  refine ⟨sampling.congr (by rw [h.sampler]) (by rw [h.converter]) (by rw [h.converter]),
    ⟨by rw [h.ring]; exact count, by rw [h.ring]; exact least, by rw [h.ring]; exact most, by rw [h.ring]; exact values⟩,
    skip, miss, by rw [h.sampler]; exact store.drops, by rw [h.ring]; exact store.lost, by rw [h.trip]; exact store.overflow⟩

end Sys2Proof.Machine

/-! What one command keeps: every command as a step of the line block that keeps the law of the trip and the capacities. -/

namespace Sys2Proof.Machine

/-! ### The three parts of a step -/

/-- What the proofs about steps need of one: what it does to the line block, and the two laws it keeps. -/
structure StepKeeps (s t : State) : Prop where
  lines    : ∀ lawful : Prop, (lawful → s.GroupsSafe) → LineStep lawful s t
  trip     : s.TripLaw → t.TripLaw
  capacity : s.SamplingLaw ∧ s.StoreLaw → t.SamplingLaw ∧ t.StoreLaw

/-- The line block, its messages, the trip controller's state and list and the timebase's state are left alone. -/
structure LinesKept (s t : State) : Prop where
  lines         : t.lines = s.lines
  groups        : t.groups = s.groups
  claims        : t.transit.claims = s.transit.claims
  clearTimebase : t.transit.clearTimebase = s.transit.clearTimebase
  clearLines    : t.transit.clearLines = s.transit.clearLines
  indicator     : t.tripIndicator = s.tripIndicator
  state         : t.trip.state = s.trip.state
  records       : t.trip.records = s.trip.records
  timebase      : t.timebase.state = s.timebase.state

/-- Everything that the laws of groups, queues, trip and capacities read is left alone. -/
structure Untouched (s t : State) : Prop where
  lines    : LinesKept s t
  capacity : CapacityKept s t

theorem LinesKept.refl (s : State) : LinesKept s s := ⟨rfl, rfl, rfl, rfl, rfl, rfl, rfl, rfl, rfl⟩

theorem LinesKept.trans {s t u : State} (h : LinesKept s t) (k : LinesKept t u) : LinesKept s u :=
  ⟨k.lines.trans h.lines, k.groups.trans h.groups, k.claims.trans h.claims, k.clearTimebase.trans h.clearTimebase,
    k.clearLines.trans h.clearLines, k.indicator.trans h.indicator, k.state.trans h.state, k.records.trans h.records,
    k.timebase.trans h.timebase⟩

theorem LinesKept.foldl {α : Type} (f : State → α → State) (hf : ∀ s a, LinesKept s (f s a)) (l : List α) (s : State) :
    LinesKept s (l.foldl f s) := by
  induction l generalizing s with
  | nil => exact .refl s
  | cons a rest ih => exact (hf s a).trans (ih _)

theorem LinesKept.tripKept {s t : State} (h : LinesKept s t) : TripKept s t :=
  .of_same h.state h.records h.clearTimebase h.clearLines h.indicator h.timebase h.lines h.groups

theorem Untouched.refl (s : State) : Untouched s s := ⟨.refl s, .refl s⟩

theorem Untouched.trans {s t u : State} (h : Untouched s t) (k : Untouched t u) : Untouched s u :=
  ⟨h.lines.trans k.lines, h.capacity.trans k.capacity⟩

/-- The blocks that the laws read are the same. -/
theorem Untouched.of_same {s t : State} (lines : t.lines = s.lines) (groups : t.groups = s.groups)
    (transit : t.transit = s.transit) (indicator : t.tripIndicator = s.tripIndicator) (trip : t.trip = s.trip)
    (timebase : t.timebase = s.timebase) (sampler : t.sampler = s.sampler) (converter : t.converter = s.converter)
    (ring : t.ring = s.ring) : Untouched s t :=
  ⟨⟨lines, groups, by rw [transit], by rw [transit], by rw [transit], indicator, by rw [trip], by rw [trip],
    by rw [timebase]⟩, .of_same sampler converter ring trip (by rw [timebase]) (by rw [timebase])⟩

/-- A command off the line block, with its own proof of the capacities. -/
theorem LinesKept.keeps {s t : State} (h : LinesKept s t)
    (capacity : s.SamplingLaw ∧ s.StoreLaw → t.SamplingLaw ∧ t.StoreLaw) : StepKeeps s t :=
  ⟨fun _ _ => .moves (.single (.handed h.lines h.groups fun sent => sent.of_claims h.claims)), h.tripKept.law, capacity⟩

theorem Untouched.keeps {s t : State} (h : Untouched s t) : StepKeeps s t := h.lines.keeps h.capacity.law

theorem StepKeeps.refl (s : State) : StepKeeps s s := (Untouched.refl s).keeps

theorem StepKeeps.upto {s t u : State} (h : StepKeeps s t) (k : Untouched t u) : StepKeeps s u :=
  ⟨fun lawful hs => (h.lines lawful hs).upto k.lines.lines k.lines.groups k.lines.claims,
    fun hs => k.keeps.trip (h.trip hs), fun hs => k.keeps.capacity (h.capacity hs)⟩

/-- Moves of the line block that leave sampling, ring and trip controller alone. -/
theorem StepKeeps.of_tick {s t : State} (moves : ∀ lawful : Prop, Guarded lawful s t) (frame : TickFrame s t)
    (counts : s.timebase.Counts → t.timebase.Counts) (trip : s.TripLaw → t.TripLaw) : StepKeeps s t :=
  ⟨fun lawful hs => .moves (moves lawful hs), trip, frame.capacity counts⟩

theorem StepKeeps.action {s t : State} {a : Address} {owner : State → State × ResultCode} (keeps : StepKeeps s (owner s).1)
    (h : s.action a owner = .next t) : StepKeeps s t := by
  injection h with h
  subst h
  split
  · exact keeps.upto (.of_same rfl rfl rfl rfl rfl rfl rfl rfl rfl)
  · exact .refl s

theorem StepKeeps.event {s t u : State} (keeps : StepKeeps s u) (h : s.event u = .next t) : StepKeeps s t := by
  injection h with h
  subst h
  split
  · exact .refl s
  · exact keeps

theorem StepKeeps.writeWord {s t u : State} {a : Address} (keeps : StepKeeps s u) (h : s.writeWord a u = .next t) :
    StepKeeps s t := by
  injection h with h
  subst h
  split
  · exact keeps.upto (.of_same rfl rfl rfl rfl rfl rfl rfl rfl rfl)
  · exact .refl s

/-! ### The plan store and the validator -/

/-- The plan store, the validator, the flags and the host port are no part of what the laws read. -/
theorem Untouched.withPlan (s : State) (plan : PlanStore) (validator : Validator) (flags : Interrupts) :
    Untouched s { s with plan := plan, validator := validator, interrupts := flags } :=
  .of_same rfl rfl rfl rfl rfl rfl rfl rfl rfl

theorem State.setStaging_untouched (s : State) (plan : Plan) : Untouched s (s.setStaging plan) :=
  .withPlan s _ _ _

theorem State.insertEdge_untouched (s : State) : Untouched s s.insertEdge.1 := by
  unfold State.insertEdge
  simp only
  split
  · exact .refl s
  · split
    · exact .refl s
    · split
      · exact .refl s
      · split
        · exact .refl s
        · split
          · exact .refl s
          · exact s.setStaging_untouched _

theorem State.removeEdge_untouched (s : State) : Untouched s s.removeEdge.1 := by
  unfold State.removeEdge
  simp only
  split
  · exact .refl s
  · split
    · exact s.setStaging_untouched _
    · exact .refl s

theorem State.clearStage_untouched (s : State) : Untouched s s.clearStage.1 := by
  unfold State.clearStage
  simp only
  split
  · exact .refl s
  · split
    · exact .refl s
    · exact s.setStaging_untouched _

theorem State.setFrameLength_untouched (s : State) : Untouched s s.setFrameLength.1 := by
  unfold State.setFrameLength
  simp only
  split
  · exact .refl s
  · split
    · exact .refl s
    · split
      · exact .refl s
      · split
        · exact .refl s
        · exact s.setStaging_untouched _

theorem State.copyActive_untouched (s : State) : Untouched s s.copyActive.1 := by
  unfold State.copyActive
  split
  · exact .refl s
  · exact .withPlan s _ _ _

theorem State.completeCopy_untouched (s : State) : Untouched s s.completeCopy := by
  unfold State.completeCopy
  split
  · exact .withPlan s _ _ _
  · exact .refl s

theorem State.setParams_untouched (s : State) (p0 p1 p2 p3 : Word) : Untouched s (s.setParams p0 p1 p2 p3) :=
  .of_same rfl rfl rfl rfl rfl rfl rfl rfl rfl

theorem State.readEntry_untouched (s : State) (p : Plan) (p3 : Word) : Untouched s (s.readEntry p p3).1 := by
  unfold State.readEntry
  split <;> exact s.setParams_untouched _ _ _ _

theorem State.readStageEntry_untouched (s : State) : Untouched s s.readStageEntry.1 := by
  unfold State.readStageEntry
  split
  · exact .refl s
  · exact s.readEntry_untouched _ _

theorem State.commit_untouched (s : State) : Untouched s s.commit.1 := by
  unfold State.commit
  split
  · exact .refl s
  · split
    · exact .refl s
    · exact .withPlan s _ _ _

theorem State.completeValidation_untouched (s : State) : Untouched s s.completeValidation := by
  unfold State.completeValidation
  split
  · split
    · unfold State.validationPasses
      simp only
      split <;> exact .withPlan s _ _ _
    · exact .withPlan s _ _ _
  · exact .refl s

theorem State.withdraw_untouched (s : State) : Untouched s s.withdraw.1 := by
  unfold State.withdraw
  simp only
  split <;> exact .withPlan s _ _ _

theorem State.planStoreTakesNotice_untouched (s : State) : Untouched s s.planStoreTakesNotice := by
  unfold State.planStoreTakesNotice
  split
  · exact .refl s
  · rename_i k _
    have notice : Untouched s { s with transit := { s.transit with planNotices := k } } :=
      ⟨⟨rfl, rfl, rfl, rfl, rfl, rfl, rfl, rfl, rfl⟩, .of_same rfl rfl rfl rfl rfl rfl⟩
    unfold State.cancelCommit
    split
    · exact notice.trans (.withPlan _ _ _ _)
    · exact notice

/-! ### The host port -/

/-- The port, the pin and the enables are no part of what the laws read. -/
theorem Untouched.withPort (s : State) (port : HostPort) : Untouched s { s with port := port } :=
  .of_same rfl rfl rfl rfl rfl rfl rfl rfl rfl

theorem State.startReadWord_untouched (s : State) (a : Address) : Untouched s (s.startReadWord a) := by
  unfold State.startReadWord
  split <;> exact .withPort s _

theorem State.writeRegister_untouched (s : State) (a : Address) (word : Word) : Untouched s (s.writeRegister a word) := by
  unfold State.writeRegister
  split
  exacts [.withPort s _, .withPort s _, .withPort s _, .withPort s _, .refl s]

theorem execCsFall_keeps {s t : State} (h : execCsFall s = .next t) : StepKeeps s t := by
  injection h with h
  subst h
  split
  · split <;> exact (Untouched.withPort s _).keeps
  · exact .refl s

theorem execCommandByte_keeps {s t : State} (byte : Byte) (h : execCommandByte byte s = .next t) : StepKeeps s t := by
  refine StepKeeps.event (Untouched.keeps ?_) h
  split
  · split
    · exact s.startReadWord_untouched _
    · exact .withPort s _
  · exact .refl s

theorem execRegisterWrite_keeps {s t : State} (word : Word) (h : execRegisterWrite word s = .next t) : StepKeeps s t := by
  unfold execRegisterWrite at h
  split at h
  · split at h
    · cases h; exact .refl s
    · exact StepKeeps.writeWord (s.writeRegister_untouched _ _).keeps h
  · exact StepKeeps.event (s.startReadWord_untouched _).keeps h
  all_goals cases h; exact .refl s

theorem State.readHead_linesKept (s : State) : LinesKept s s.readHead := by
  unfold State.readHead; split <;> constructor <;> rfl

theorem execRecordRead_keeps {s t : State} (h : execRecordRead s = .next t) : StepKeeps s t := by
  unfold execRecordRead at h
  split at h
  · exact StepKeeps.event ((s.readHead_linesKept.keeps s.readHead_capacity).upto (.withPort _ _)) h
  all_goals cases h; exact .refl s

/-! ### The line block and the timebase -/

theorem State.readLine_untouched (s : State) : Untouched s s.readLine.1 := by
  unfold State.readLine
  split
  · exact .refl s
  · exact s.setParams_untouched _ _ _ _

theorem State.readGroup_untouched (s : State) : Untouched s s.readGroup.1 := by
  unfold State.readGroup
  split
  · exact .refl s
  · simp only
    split
    · exact s.setParams_untouched _ _ _ _
    · split
      · exact s.setParams_untouched _ _ _ _
      · exact .refl s

/-- Moves of the line block alone. -/
theorem StepKeeps.of_block {s t : State} (moves : ∀ lawful : Prop, Guarded lawful s t) (frame : BlockFrame s t)
    (trip : s.TripLaw → t.TripLaw) : StepKeeps s t :=
  .of_tick moves frame.tick (fun counts => by rw [frame.timebase]; exact counts) trip

theorem State.setLineConfig_keeps (s : State) : StepKeeps s s.setLineConfig.1 :=
  .of_block (fun _ => s.setLineConfig_guarded) s.setLineConfig_blockFrame s.setLineConfig_tripLaw

theorem State.setLineMode_keeps (s : State) : StepKeeps s s.setLineMode.1 :=
  .of_block (fun _ => s.setLineMode_guarded) s.setLineMode_blockFrame s.setLineMode_tripLaw

theorem State.lineBlockTakesClaims_keeps (s : State) : StepKeeps s s.lineBlockTakesClaims :=
  .of_block (fun _ => s.lineBlockTakesClaims_guarded) s.lineBlockTakesClaims_blockFrame s.lineBlockTakesClaims_tripLaw

theorem State.expireOne_keeps (s : State) (g : Fin 6) : StepKeeps s (s.expireOne g) :=
  .of_block (fun _ => s.expireOne_guarded g) (s.expireOne_moves g).frame.blockFrame (s.expireOne_tripLaw g)

theorem State.setGroup_keeps (s : State) : StepKeeps s s.setGroup.1 := by
  refine ⟨fun _ _ => s.setGroup_lineStep, s.setGroup_tripKept.law, CapacityKept.law ?_⟩
  have taken (g : Fin 6) (policy : Policy) (proposed : List (Fin 16)) (gap limit : Nat) :
      CapacityKept s (s.applyGroup g policy proposed gap limit) := by
    unfold State.applyGroup
    exact .of_same rfl rfl rfl rfl rfl rfl
  unfold State.setGroup
  split
  · exact .refl s
  · split
    · exact .refl s
    · split
      · simp only
        split
        · exact .refl s
        · split
          · exact .refl s
          · split
            · exact .refl s
            · exact taken _ _ _ _ _
      · exact .refl s

theorem State.setTimebase_keeps (s : State) : StepKeeps s s.setTimebase.1 := by
  refine ⟨fun _ _ => s.setTimebase_lineStep, s.setTimebase_tripKept.law, CapacityKept.law ?_⟩
  unfold State.setTimebase
  split
  · exact .refl s
  · split
    · exact .refl s
    · unfold State.applyTimebase
      simp only
      split <;> exact .of_same rfl rfl rfl rfl rfl rfl

theorem State.startTimebase_keeps (s : State) : StepKeeps s s.startTimebase.1 := by
  refine ⟨fun _ hs => .moves (s.startTimebase_guarded hs), s.startTimebase_tripLaw, CapacityKept.law ?_⟩
  unfold State.startTimebase
  split
  · exact .refl s
  · split
    · exact .refl s
    · split
      · exact .refl s
      · simp only
        split <;> exact .of_same rfl rfl rfl rfl rfl rfl

theorem State.stopTimebase_keeps (s : State) : StepKeeps s s.stopTimebase.1 := by
  have stops : s.SamplingLaw ∧ s.StoreLaw → s.becomeStopped.SamplingLaw ∧ s.becomeStopped.StoreLaw :=
    s.becomeStopped_tickFrame.capacity s.becomeStopped_countsKept.counts
  refine ⟨fun _ hs => .moves (s.stopTimebase_guarded hs), s.stopTimebase_tripLaw, ?_⟩
  unfold State.stopTimebase
  split
  exacts [CapacityKept.law (.of_same rfl rfl rfl rfl rfl rfl), stops, stops, id, id, id]

theorem State.oneTick_keeps (s : State) : StepKeeps s s.oneTick :=
  .of_tick (fun _ => s.oneTick_guarded) s.oneTick_tickFrame s.oneTick_counts s.oneTick_tripLaw

theorem State.settleSync_keeps (s : State) : StepKeeps s s.settleSync :=
  .of_tick (fun _ => s.settleSync_guarded) s.settleSync_tickFrame s.settleSync_counts s.settleSync_tripLaw

theorem State.timebaseTakesClear_keeps (s : State) : StepKeeps s s.timebaseTakesClear := by
  have same (t : State) (lines : t.lines = s.lines) (groups : t.groups = s.groups)
      (claims : t.transit.claims = s.transit.claims) (kept : CapacityKept s t) (trip : s.TripLaw → t.TripLaw) :
      StepKeeps s t :=
    ⟨fun _ _ => .moves (.single (.handed lines groups fun sent => sent.of_claims claims)), trip, kept.law⟩
  have trip := s.timebaseTakesClear_tripLaw
  unfold State.timebaseTakesClear at trip ⊢
  split at trip
  · rename_i notice
    rw [if_pos notice]
    simp only at trip ⊢
    split at trip
    · rename_i halted
      rw [if_pos halted]
      exact same _ rfl rfl rfl (.of_same rfl rfl rfl rfl rfl rfl) trip
    · rename_i standing
      rw [if_neg standing]
      exact same _ rfl rfl rfl (.of_same rfl rfl rfl rfl rfl rfl) trip
  · rename_i none
    rw [if_neg none]
    exact .refl s

theorem State.lineBlockTakesClear_keeps (s : State) : StepKeeps s s.lineBlockTakesClear := by
  refine ⟨fun _ hs => .moves (s.lineBlockTakesClear_guarded hs), s.lineBlockTakesClear_tripLaw, CapacityKept.law ?_⟩
  unfold State.lineBlockTakesClear
  split
  · exact .of_same rfl rfl rfl rfl rfl rfl
  · exact .refl s

/-! ### The sampling path -/

theorem State.serveQueue_linesKept (s : State) : LinesKept s s.serveQueue := by
  unfold State.serveQueue; split <;> constructor <;> rfl

theorem State.placeRequest_linesKept (s : State) (slot : Fin 8) (origin : Origin) :
    LinesKept s (s.placeRequest slot origin) := by
  unfold State.placeRequest
  simp only
  split
  · refine LinesKept.trans ?_ (State.serveQueue_linesKept _)
    constructor <;> rfl
  · constructor <;> rfl

theorem State.takeTag_linesKept (s : State) (tag : SampleTag) : LinesKept s (s.takeTag tag) := by
  unfold State.takeTag
  split
  · constructor <;> rfl
  · exact s.placeRequest_linesKept _ _

theorem State.samplerTakesTag_linesKept (s : State) : LinesKept s s.samplerTakesTag := by
  unfold State.samplerTakesTag
  split
  · exact .refl s
  · refine LinesKept.trans ?_ (State.takeTag_linesKept _ _)
    constructor <;> rfl

theorem State.takeTagsOf_linesKept (s : State) (step : Nat) : LinesKept s (s.takeTagsOf step) := by
  refine LinesKept.trans ?_ (LinesKept.foldl _ State.takeTag_linesKept _ _)
  constructor <;> rfl

theorem State.samplingTakesNotice_linesKept (s : State) : LinesKept s s.samplingTakesNotice := by
  unfold State.samplingTakesNotice
  split
  · exact .refl s
  · rename_i cause rest _
    cases cause with
    | none => constructor <;> rfl
    | some step =>
      refine (s.takeTagsOf_linesKept step).trans ?_
      constructor <;> rfl

theorem State.sampleNow_linesKept (s : State) : LinesKept s s.sampleNow.1 := by
  unfold State.sampleNow
  split
  · exact .refl s
  · split
    · exact .refl s
    · exact s.placeRequest_linesKept _ _

theorem State.setFlagIf_linesKept (s : State) (c : Bool) (f : Flag) : LinesKept s (s.setFlagIf c f) := by
  unfold State.setFlagIf; split <;> constructor <;> rfl

theorem State.append_linesKept (s : State) (slot : Fin 8) (channel : Fin 9) (origin : Origin) (value wait : Nat) :
    LinesKept s (s.append slot channel origin value wait) := by
  have source (t : State) (c : Bool) (source : TripSource) : LinesKept t (if c then t.sendSource source else t) := by
    split <;> constructor <;> rfl
  refine LinesKept.trans (LinesKept.trans (LinesKept.trans ?_ (State.setFlagIf_linesKept _ _ _)) (source _ _ _))
    (State.setFlagIf_linesKept _ _ _)
  constructor <;> rfl

theorem State.startTrial_linesKept (s : State) (kept bit : Nat) : LinesKept s (s.startTrial kept bit) := by
  constructor <;> rfl

theorem State.completeConversion_linesKept (s : State) : LinesKept s s.completeConversion := by
  unfold State.completeConversion
  split
  · exact (s.append_linesKept _ _ _ _ _).trans (State.serveQueue_linesKept _)
  · exact (s.append_linesKept _ _ _ _ _).trans (State.startTrial_linesKept _ _ _)
  · exact .refl s
  · exact .refl s

theorem State.completeTrial_linesKept (s : State) : LinesKept s s.completeTrial := by
  unfold State.completeTrial
  split
  · split
    · refine LinesKept.trans ?_ (State.serveQueue_linesKept _)
      constructor <;> rfl
    · exact s.startTrial_linesKept _ _
  all_goals exact .refl s

theorem State.setSlot_linesKept (s : State) : LinesKept s s.setSlot.1 := by
  unfold State.setSlot; split <;> constructor <;> rfl

theorem State.readSlot_untouched (s : State) : Untouched s s.readSlot.1 := by
  unfold State.readSlot
  split
  · exact .refl s
  · exact s.setParams_untouched _ _ _ _

theorem State.setConverter_untouched (s : State) : Untouched s s.setConverter.1 := by
  unfold State.setConverter
  split
  · exact .refl s
  · split
    · exact .refl s
    · exact ⟨by constructor <;> rfl, rfl, rfl, rfl, by constructor <;> rfl⟩

theorem State.calibrate_linesKept (s : State) : LinesKept s s.calibrate.1 := by
  unfold State.calibrate; split <;> constructor <;> rfl

theorem State.cancelCal_linesKept (s : State) : LinesKept s s.cancelCal.1 := by
  unfold State.cancelCal
  split
  · refine LinesKept.trans ?_ (State.serveQueue_linesKept _)
    constructor <;> rfl
  all_goals constructor <;> rfl

theorem State.setRing_linesKept (s : State) : LinesKept s s.setRing.1 := by
  unfold State.setRing
  simp only
  split
  · exact .refl s
  · refine LinesKept.trans ?_ (State.setFlagIf_linesKept _ _ _)
    constructor <;> rfl

/-! ### The trip controller and the resets -/

theorem State.setFaultInput_untouched (s : State) (i : Fin 2) (f : FaultInput) : Untouched s (s.setFaultInput i f) :=
  ⟨by constructor <;> rfl, rfl, rfl, rfl, by constructor <;> rfl⟩

theorem State.sendSource_untouched (s : State) (source : TripSource) : Untouched s (s.sendSource source) :=
  ⟨by constructor <;> rfl, rfl, rfl, rfl, by constructor <;> rfl⟩

theorem State.qualify_untouched (s : State) (i : Fin 2) : Untouched s (s.qualify i) :=
  (s.setFaultInput_untouched i _).trans (State.sendSource_untouched _ _)

theorem State.judgeSample_untouched (s : State) (i : Fin 2) (asserted : Bool) :
    Untouched s (s.judgeSample i asserted) := by
  unfold State.judgeSample
  simp only
  split
  · exact .refl s
  · split
    · exact s.setFaultInput_untouched i _
    · split
      · exact .refl s
      · split
        · exact s.setFaultInput_untouched i _
        · exact s.qualify_untouched i

theorem State.setFault_untouched (s : State) : Untouched s s.setFault.1 := by
  unfold State.setFault
  split
  · exact ⟨by constructor <;> rfl, rfl, rfl, rfl, by constructor <;> rfl⟩
  · exact .refl s

theorem State.takeSource_keeps (s : State) (sent : SentSource) : StepKeeps s (s.takeSource sent) :=
  ⟨fun _ hs => .moves (s.takeSource_guarded sent hs), s.takeSource_tripLaw sent, s.takeSource_capacity sent⟩

theorem State.controllerTakes_keeps (s : State) (source : TripSource) : StepKeeps s (s.controllerTakes source) :=
  ⟨fun _ hs => .moves (s.controllerTakes_guarded source hs), s.controllerTakes_tripLaw source,
    s.controllerTakes_capacity source⟩

/-- CLEAR_TRIP changes the controller's state and list, and sends the clear notice (R184). -/
theorem State.clearTrip_keeps (s : State) : StepKeeps s s.clearTrip.1 := by
  have left : (∀ lawful, GuardMove lawful s s.clearTrip.1) ∧ CapacityKept s s.clearTrip.1 := by
    unfold State.clearTrip
    split
    · exact ⟨fun _ => .handed rfl rfl id, .refl s⟩
    · split
      · exact ⟨fun _ => .handed rfl rfl id, .refl s⟩
      · exact ⟨fun _ => .handed rfl rfl id, rfl, rfl, rfl, by constructor <;> rfl⟩
  obtain ⟨move, kept⟩ := left
  exact ⟨fun _ _ => .moves (.single (move _)), s.clearTrip_tripLaw, kept.law⟩

theorem State.readTripRecord_untouched (s : State) : Untouched s s.readTripRecord.1 := by
  unfold State.readTripRecord
  split
  · exact .refl s
  · exact s.setParams_untouched _ _ _ _

theorem State.zeroCounters_keeps (s : State) : StepKeeps s s.zeroCounters := by
  refine ⟨fun _ hs => .moves (s.zeroCounters_guarded hs), TripKept.law ?_, s.zeroCounters_capacity⟩
  refine ⟨rfl, rfl, rfl, rfl, rfl, rfl, fun _ => rfl, fun _ => rfl, fun _ => rfl, fun g empty => ?_⟩
  have groups : s.zeroCounters.groups = mapTable s.groups fun r => { r with deferred := 0, abandoned := 0 } := rfl
  rw [groups, mapTable_fin]
  exact empty

theorem State.softReset_keeps (s : State) : StepKeeps s s.softReset :=
  ⟨fun _ hs => .moves (s.softReset_guarded hs), s.softReset_tripLaw, s.softReset_capacity⟩

theorem State.powerOn_keeps (s : State) (rstLow : Bool) : StepKeeps s { s.powerOnValues with rstLow := rstLow } :=
  ⟨fun _ _ => State.powerOn_lineStep _ _ rfl rfl rfl, fun _ => State.tripLaw_of_armed rfl rfl rfl,
    fun _ => State.capacity_of_powerOn rfl rfl rfl rfl rfl rfl⟩

/-! ### Every command -/

theorem exec_keeps (c : Instr) {s t : State} (h : exec c s = .next t) : StepKeeps s t := by
  cases c with
  | powerOn => cases h; exact s.powerOn_keeps s.rstLow
  | rstAssert => cases h; exact s.powerOn_keeps true
  | rstRelease =>
    cases h
    split
    · exact Untouched.keeps ⟨by constructor <;> rfl, .of_same rfl rfl rfl rfl rfl rfl⟩
    · exact .refl s
  | csFall => exact execCsFall_keeps h
  | commandByte byte => exact execCommandByte_keeps byte h
  | csRise => cases h; exact (Untouched.withPort s _).keeps
  | registerWrite word => exact execRegisterWrite_keeps word h
  | recordRead => exact execRecordRead_keeps h
  | iflagWrite word => exact StepKeeps.writeWord (Untouched.withPlan s s.plan s.validator _).keeps h
  | ienableWrite word => exact StepKeeps.writeWord (Untouched.withPlan s s.plan s.validator _).keeps h
  | insertEdge => exact StepKeeps.action s.insertEdge_untouched.keeps h
  | removeEdge => exact StepKeeps.action s.removeEdge_untouched.keeps h
  | clearStage => exact StepKeeps.action s.clearStage_untouched.keeps h
  | setFrameLength => exact StepKeeps.action s.setFrameLength_untouched.keeps h
  | copyActive => exact StepKeeps.action s.copyActive_untouched.keeps h
  | copyCompletion => exact StepKeeps.event s.completeCopy_untouched.keeps h
  | readStageEntry => exact StepKeeps.action s.readStageEntry_untouched.keeps h
  | readActiveEntry => exact StepKeeps.action (s.readEntry_untouched _ _).keeps h
  | commit => exact StepKeeps.action s.commit_untouched.keeps h
  | validationCompletion => exact StepKeeps.event s.completeValidation_untouched.keeps h
  | withdraw => exact StepKeeps.action s.withdraw_untouched.keeps h
  | tripNoticePlanStore => exact StepKeeps.event s.planStoreTakesNotice_untouched.keeps h
  | setTimebase => exact StepKeeps.action s.setTimebase_keeps h
  | start => exact StepKeeps.action s.startTimebase_keeps h
  | stop => exact StepKeeps.action s.stopTimebase_keeps h
  | tick => exact StepKeeps.event s.oneTick_keeps h
  | syncInArrival =>
    refine StepKeeps.event (Untouched.keeps ?_) h
    exact ⟨by constructor <;> rfl, .of_same rfl rfl rfl rfl rfl rfl⟩
  | syncTimeout => exact StepKeeps.event s.settleSync_keeps h
  | engineClaims => exact StepKeeps.event s.lineBlockTakesClaims_keeps h
  | deferralExpiry group => exact StepKeeps.event (s.expireOne_keeps group) h
  | setLineConfig => exact StepKeeps.action s.setLineConfig_keeps h
  | setLineMode => exact StepKeeps.action s.setLineMode_keeps h
  | setGroup => exact StepKeeps.action s.setGroup_keeps h
  | readLine => exact StepKeeps.action s.readLine_untouched.keeps h
  | readGroup => exact StepKeeps.action s.readGroup_untouched.keeps h
  | clearNoticeTimebase => exact StepKeeps.event s.timebaseTakesClear_keeps h
  | clearNoticeLineBlock => exact StepKeeps.event s.lineBlockTakesClear_keeps h
  | setSlot => exact StepKeeps.action (s.setSlot_linesKept.keeps s.setSlot_capacity) h
  | readSlot => exact StepKeeps.action s.readSlot_untouched.keeps h
  | sampleNow => exact StepKeeps.action (s.sampleNow_linesKept.keeps s.sampleNow_capacity) h
  | sampleRequest => exact StepKeeps.event (s.samplerTakesTag_linesKept.keeps s.samplerTakesTag_capacity) h
  | conversionCompletion =>
    exact StepKeeps.event (s.completeConversion_linesKept.keeps s.completeConversion_capacity) h
  | setConverter => exact StepKeeps.action s.setConverter_untouched.keeps h
  | calibrate => exact StepKeeps.action (s.calibrate_linesKept.keeps s.calibrate_capacity) h
  | calibrationConversion => exact StepKeeps.event (s.completeTrial_linesKept.keeps s.completeTrial_capacity) h
  | cancelCal => exact StepKeeps.action (s.cancelCal_linesKept.keeps s.cancelCal_capacity) h
  | tripNoticeConverter =>
    exact StepKeeps.event (s.samplingTakesNotice_linesKept.keeps s.samplingTakesNotice_capacity) h
  | setRing => exact StepKeeps.action (s.setRing_linesKept.keeps s.setRing_capacity) h
  | faultSample input pinHigh =>
    exact StepKeeps.event ((s.judgeSample_untouched _ _).trans (State.setFaultInput_untouched _ _ _)).keeps h
  | filterExpiry input =>
    refine StepKeeps.event (Untouched.keeps ?_) h
    split
    · exact (s.qualify_untouched _).trans (State.setFaultInput_untouched _ _ _)
    · exact .refl s
  | setFault => exact StepKeeps.action s.setFault_untouched.keeps h
  | tripSource source => exact StepKeeps.event (s.controllerTakes_keeps source) h
  | trip => exact StepKeeps.action (s.takeSource_keeps _) h
  | clearTrip => exact StepKeeps.action s.clearTrip_keeps h
  | readTripRecord => exact StepKeeps.action s.readTripRecord_untouched.keeps h
  | clearCounters => exact StepKeeps.action (owner := fun u => (u.zeroCounters, .ok)) s.zeroCounters_keeps h
  | softReset => exact StepKeeps.action (owner := fun u => (u.softReset, .ok)) s.softReset_keeps h

/-- A step is a command on the state with the queue's rest, or a CLK period; either way it starts where `s` stands. -/
theorem step_keeps {s t : State} (h : step s = .next t) : ∃ u, StepKeeps s u ∧ StepKeeps u t := by
  unfold step at h
  split at h
  · have clk : Untouched s s.passClk := .of_same rfl rfl rfl rfl rfl rfl rfl rfl rfl
    cases h
    exact ⟨s, .refl s, clk.keeps⟩
  · rename_i c rest _
    have front : Untouched s { s with pending := rest } := .of_same rfl rfl rfl rfl rfl rfl rfl rfl rfl
    exact ⟨_, front.keeps, exec_keeps c h⟩

/-! ### What every step keeps -/

theorem StepKeeps.groupsSafe {s t : State} (keeps : StepKeeps s t) (hs : s.GroupsSafe) : t.GroupsSafe :=
  (keeps.lines True fun _ => hs).groupsSafe trivial hs

theorem StepKeeps.queuesLawful {s t : State} (keeps : StepKeeps s t) (hs : s.GroupsSafe) (queues : s.QueuesLawful) :
    t.QueuesLawful :=
  (keeps.lines True fun _ => hs).queuesLawful queues

/-- The line block's counters by its moves, which need no safe groups here, and the rest block by block. -/
theorem StepKeeps.capacities {s t : State} (keeps : StepKeeps s t) (hs : s.SamplingLaw ∧ s.RingLaw ∧ s.CountersLaw) :
    t.SamplingLaw ∧ t.RingLaw ∧ t.CountersLaw := by
  obtain ⟨capacity, lines⟩ := s.capacities_iff.1 hs
  exact t.capacities_iff.2 ⟨keeps.capacity capacity, (keeps.lines False False.elim).counters lines⟩

/-- Settles O56: a step is moves of the line block, each of which rises a member only when its rise is clear, or a change
that brings no two ACTIVE lines into a group. -/
theorem stepsKeepGroupsSafe : Obligations.StepsKeepGroupsSafe := by
  intro s t hs h
  obtain ⟨u, front, command⟩ := step_keeps h
  exact command.groupsSafe (front.groupsSafe hs)

/-- Settles O57: the gap that a clear rise finds is kept by the moves after it. -/
theorem membersRiseOnlyAfterTheGap : Obligations.MembersRiseOnlyAfterTheGap := by
  intro c s t g x y hs counters h down up hx hy ne
  exact ((exec_keeps c h).lines True fun _ => hs).gap hs counters.ages down up hx hy ne

/-- Settles O58: every move, and every change that is none, keeps the law of each queue. -/
theorem stepsKeepQueuesLawful : Obligations.StepsKeepQueuesLawful := by
  intro s t hs queues h
  obtain ⟨u, front, command⟩ := step_keeps h
  exact command.queuesLawful (front.groupsSafe hs) (front.queuesLawful hs queues)

/-- Settles O59: while the indicator is set commands leave lines and timebase standing, and while it is clear the device is
not tripped. -/
theorem stepsKeepTheTripLaw : Obligations.StepsKeepTheTripLaw := by
  intro s t hs h
  obtain ⟨u, front, command⟩ := step_keeps h
  exact command.trip (front.trip hs)

/-- Settles O60: each of the two parts of a step keeps every capacity. -/
theorem stepsKeepCapacities : Obligations.StepsKeepCapacities := by
  intro s t sampling ring counters h
  obtain ⟨u, front, command⟩ := step_keeps h
  exact command.capacities (front.capacities ⟨sampling, ring, counters⟩)

end Sys2Proof.Machine

/-! The guard at work: the examination of a queue's head, the expiry of a wait, and the claims of an engine step, one
equation for each case that the manual separates. -/

namespace Sys2Proof.Machine

/-! ### The expiry of a wait (R126) -/

theorem State.expireOne_none (s : State) (g : Fin 6) (below : ∀ w ∈ s.groups[g].queue, w.wait < s.groups[g].limit) :
    s.expireOne g = s := by
  unfold State.expireOne
  rw [withoutExpired_none _ _ below]

theorem State.expireOne_oldest (s : State) (g : Fin 6) {before after : List Waiting} {w : Waiting}
    (queue : s.groups[g].queue = before ++ w :: after) (below : ∀ v ∈ before, v.wait < s.groups[g].limit)
    (expired : s.groups[g].limit ≤ w.wait) :
    s.expireOne g = (State.withFlags { s with groups := s.groups.set g { s.groups[g] with
      queue := before ++ after, abandoned := min (s.groups[g].abandoned + 1) 255 } } 0x0100#13).examineHead g := by
  unfold State.expireOne
  rw [queue, withoutExpired_some _ _ _ _ below expired]
  rfl

/-- Settles O33: the head's examination and the oldest expired wait, case by case. -/
theorem guardGrantsAndAbandons : Obligations.GuardGrantsAndAbandons := by
  refine ⟨fun s g => s.examineHead_nil g, fun s g w rest queue => ⟨?_, s.examineHead_stays g queue⟩,
    fun s g awake => ⟨fun below => ?_, fun before after w queue below expired => ?_⟩⟩
  · exact fun clear => s.examineHead_rises g queue clear
  · calc exec (.deferralExpiry g) s = .next (s.expireOne g) := State.event_next awake _
      _ = .next s := by rw [s.expireOne_none g below]
  · refine ⟨_, rfl, ?_⟩
    rw [← s.expireOne_oldest g queue below expired]
    exact State.event_next awake _

/-! ### One engine step's claims (R111) -/

/-- The state with these claim steps on their way to the line block. -/
def State.withClaims (s : State) (claims : List (List Claim)) : State :=
  { s with transit := { s.transit with claims := claims } }

theorem State.withClaims_self {s : State} {claims : List (List Claim)} (h : s.transit.claims = claims) :
    s.withClaims claims = s := by subst h; rfl

theorem engineClaims_none {s : State} (awake : s.rstLow = false) (h : s.transit.claims = []) :
    exec .engineClaims s = .next s := by
  have idle : s.lineBlockTakesClaims = s := by unfold State.lineBlockTakesClaims; rw [h]
  calc exec .engineClaims s = .next s.lineBlockTakesClaims := State.event_next awake _
    _ = .next s := by rw [idle]

theorem engineClaims_step {s : State} {step : List Claim} {rest : List (List Claim)} (awake : s.rstLow = false)
    (h : s.transit.claims = step :: rest) :
    exec .engineClaims s = .next ((s.withClaims rest).takeClaimStep step) := by
  have takes : s.lineBlockTakesClaims = (s.withClaims rest).takeClaimStep step := by
    unfold State.lineBlockTakesClaims; rw [h]; rfl
  calc exec .engineClaims s = .next s.lineBlockTakesClaims := State.event_next awake _
    _ = .next ((s.withClaims rest).takeClaimStep step) := by rw [takes]

theorem engineClaims_one {s : State} {c : Claim} {rest : List (List Claim)} (awake : s.rstLow = false)
    (h : s.transit.claims = [c] :: rest) : exec .engineClaims s = .next ((s.withClaims rest).takeClaim c) :=
  engineClaims_step awake h

theorem State.takeClaim_claims (s : State) (c : Claim) : (s.takeClaim c).transit.claims = s.transit.claims := by
  rw [(s.takeClaim_frame c).transit]

/-- A claim's line is not SCHEDULED, or the indicator is set. -/
theorem State.takeClaim_ignored {s : State} {c : Claim}
    (h : s.tripIndicator = true ∨ s.lines[c.line].mode ≠ .scheduled) : s.takeClaim c = s := by
  unfold State.takeClaim
  refine if_pos ?_
  rw [Bool.or_eq_true, bne_iff_ne]
  exact h

/-- Otherwise the claim is taken by its kind. -/
theorem State.takeClaim_taken {s : State} {c : Claim} (indicator : s.tripIndicator = false)
    (scheduled : s.lines[c.line].mode = .scheduled) :
    s.takeClaim c = match c with
      | .fall x => (s.removeWaiting x).moveLine x .inactive
      | .startFall x target => (s.removeWaiting x).moveLine x target
      | .rise x => s.judgeRise x
      | .startRise x => (s.removeWaiting x).judgeRise x := by
  have taken : ¬(s.tripIndicator || s.lines[c.line].mode != .scheduled) = true := by
    rw [indicator, scheduled]; decide
  cases c <;> exact if_neg taken

/-- FALL claim and start fall alike remove a waiting rise and give the line its target. -/
theorem State.takeClaim_lowers {s : State} {c : Claim} {x : Fin 16} {target : Level}
    (kind : (c = .fall x ∧ target = .inactive) ∨ c = .startFall x target) (indicator : s.tripIndicator = false)
    (scheduled : s.lines[x].mode = .scheduled) : s.takeClaim c = (s.removeWaiting x).moveLine x target := by
  rcases kind with ⟨rfl, rfl⟩ | rfl <;> exact State.takeClaim_taken indicator scheduled

/-- The line whose waiting rise is removed does not move itself. -/
theorem State.removeWaiting_line (s : State) (x : Fin 16) : (s.removeWaiting x).lines[x] = s.lines[x] := by
  by_cases waits : s.isWaiting x = true
  · obtain ⟨g, member, waiting⟩ := (s.isWaiting_iff x).1 waits
    rw [s.removeWaiting_waiting x g member waiting]
    refine State.examineHead_line _ g x fun w hw => ?_
    rw [s.setGroupRecord_self] at hw
    simpa using (List.mem_filter.1 hw).2
  · rw [s.removeWaiting_absent]
    exact fun g member w hw same => waits ((s.isWaiting_iff x).2 ⟨g, member, w, hw, same⟩)

/-- Settles O34: a claim is taken in front of the rest of its step, and each kind of fall follows from the removal of the
waiting rise and the move of the line. -/
theorem claimsAreTakenInOrderAndLinesFall : Obligations.ClaimsAreTakenInOrderAndLinesFall := by
  refine ⟨fun s awake => ⟨engineClaims_none awake, fun rest claims => engineClaims_step awake claims,
    fun c more rest claims => ⟨fun ignored => ?_, ?_⟩⟩, ?_⟩
  · calc exec .engineClaims (s.withClaims ([c] :: rest)) = .next ((s.withClaims rest).takeClaim c) :=
          engineClaims_one awake rfl
      _ = .next (s.withClaims rest) := by rw [State.takeClaim_ignored (s := s.withClaims rest) ignored]
  · let t := (s.withClaims rest).takeClaim c
    have awake_t : t.rstLow = false := ((s.withClaims rest).takeClaim_frame c).rstLow.trans awake
    have left : t.withClaims rest = t := State.withClaims_self ((s.withClaims rest).takeClaim_claims c)
    have more_taken : exec .engineClaims (t.withClaims (more :: rest)) = .next (t.takeClaimStep more) := by
      have later : exec .engineClaims (t.withClaims (more :: rest)) = .next ((t.withClaims rest).takeClaimStep more) :=
        engineClaims_step awake_t rfl
      rwa [left] at later
    exact ⟨t, engineClaims_one (s := s.withClaims ([c] :: rest)) awake rfl,
      (engineClaims_step awake claims).trans more_taken.symm⟩
  · intro s u c x target rest awake claims hu kind indicator scheduled
    subst hu
    have lowered : exec .engineClaims s = .next (((s.withClaims rest).removeWaiting x).moveLine x target) := by
      rw [engineClaims_one awake claims,
        State.takeClaim_lowers (s := s.withClaims rest) (kind.imp_right And.left) indicator scheduled]
    refine ⟨fun absent => ⟨fun down => ?_, fun active => ?_⟩, fun g member waits down => ⟨_, rfl, ?_⟩⟩
    · rw [lowered, State.removeWaiting_absent (s.withClaims rest) x absent,
        State.moveLine_stays_or_rises (s.withClaims rest) x target fun k => down k.1]
      rfl
    · have falls : target ≠ .active := kind.elim (fun h => by rw [h.2]; decide) And.right
      rw [lowered, State.removeWaiting_absent (s.withClaims rest) x absent,
        State.moveLine_falls (s.withClaims rest) x target ⟨active, falls⟩]
      rfl
    · have line : ((s.withClaims rest).removeWaiting x).lines[x] = s.lines[x] := State.removeWaiting_line _ x
      rw [lowered, State.moveLine_stays_or_rises _ x target (by rw [line]; exact fun k => down k.1), line,
        State.removeWaiting_waiting (s.withClaims rest) x g member waits]
      rfl

end Sys2Proof.Machine

/-! RISE claims and start rises, one equation for each case of the judgement (R123, R124). -/

namespace Sys2Proof.Machine

/-! ### The judgement of a rise -/

theorem State.judgeRise_active {s : State} {x : Fin 16} (active : s.lines[x].level = .active) : s.judgeRise x = s :=
  if_pos active

theorem State.judgeRise_ungrouped {s : State} {x : Fin 16} (down : s.lines[x].level ≠ .active)
    (ungrouped : s.lines[x].group = none) : s.judgeRise x = s.setLine x { s.lines[x] with level := .active } := by
  rw [State.judgeRise, if_neg down, ungrouped]
  exact s.moveLine_stays_or_rises x .active fun k => k.2 rfl

/-- For a member that is down, the place in the queue and the guard's check decide. -/
theorem State.judgeRise_member {s : State} {x : Fin 16} {g : Fin 6} (down : s.lines[x].level ≠ .active)
    (member : s.lines[x].group = some g) :
    s.judgeRise x = if s.isWaiting x then s
      else if s.groups[g].queue.isEmpty && s.clear x then s.moveLine x .active
      else match s.groups[g].policy with
        | .defer => s.deferRise g x
        | .trip => s.sendSource (.interlock g) := by
  rw [State.judgeRise, if_neg down]
  split
  · rename_i ungrouped; rw [member] at ungrouped; cases ungrouped
  · rename_i k own
    obtain rfl : g = k := by rw [member] at own; injection own
    rfl

theorem State.judgeRise_waiting {s : State} {x : Fin 16} {g : Fin 6} (down : s.lines[x].level ≠ .active)
    (member : s.lines[x].group = some g) (waits : ∃ w ∈ s.groups[g].queue, w.line = x) : s.judgeRise x = s := by
  rw [State.judgeRise_member down member, if_pos ((s.isWaiting_iff x).2 ⟨g, member, waits⟩)]

/-- A line waits only in its own group's queue. -/
theorem State.isWaiting_member {s : State} {x : Fin 16} {g : Fin 6} (member : s.lines[x].group = some g)
    (absent : ∀ w ∈ s.groups[g].queue, w.line ≠ x) : s.isWaiting x = false := by
  rw [Bool.eq_false_iff]
  intro waits
  obtain ⟨k, hk, w, hw, same⟩ := (s.isWaiting_iff x).1 waits
  obtain rfl : g = k := by rw [member] at hk; injection hk
  exact absent w hw same

theorem State.judgeRise_rises {s : State} {x : Fin 16} {g : Fin 6} (down : s.lines[x].level ≠ .active)
    (member : s.lines[x].group = some g) (empty : s.groups[g].queue = []) (clear : s.RiseClear x) :
    s.judgeRise x = s.setLine x { s.lines[x] with level := .active } := by
  have absent : s.isWaiting x = false := State.isWaiting_member member fun w hw => by rw [empty] at hw; cases hw
  rw [State.judgeRise_member down member, absent, empty, (s.clear_iff_riseClear x).2 clear]
  exact s.moveLine_stays_or_rises x .active fun k => k.2 rfl

/-- A rise that is not granted goes by the group's policy. -/
theorem State.judgeRise_denied {s : State} {x : Fin 16} {g : Fin 6} (down : s.lines[x].level ≠ .active)
    (member : s.lines[x].group = some g) (absent : ∀ w ∈ s.groups[g].queue, w.line ≠ x)
    (denied : ¬(s.groups[g].queue = [] ∧ s.RiseClear x)) :
    s.judgeRise x = match s.groups[g].policy with
      | .defer => s.deferRise g x
      | .trip => s.sendSource (.interlock g) := by
  rw [State.judgeRise_member down member, State.isWaiting_member member absent, if_neg Bool.false_ne_true, if_neg]
  rw [Bool.and_eq_true, List.isEmpty_iff, s.clear_iff_riseClear]
  exact denied

theorem State.deferRise_joins {s : State} {g : Fin 6} (x : Fin 16) (limit : 0 < s.groups[g].limit) :
    s.deferRise g x = s.setGroupRecord g { s.groups[g] with
      queue := s.groups[g].queue ++ [⟨x, 0⟩], deferred := min (s.groups[g].deferred + 1) 255 } :=
  if_neg (Nat.pos_iff_ne_zero.1 limit)

theorem State.deferRise_abandoned {s : State} {g : Fin 6} (x : Fin 16) (limit : s.groups[g].limit = 0) :
    s.deferRise g x = (s.setGroupRecord g { s.groups[g] with
      deferred := min (s.groups[g].deferred + 1) 255,
      abandoned := min (s.groups[g].abandoned + 1) 255 }).withFlags 0x0100#13 :=
  if_pos limit

/-! ### Claims under way are no part of the guard's work -/

theorem State.examineHead_withClaims (s : State) (g : Fin 6) (claims : List (List Claim)) :
    (s.withClaims claims).examineHead g = (s.examineHead g).withClaims claims := by
  match queue : s.groups[g].queue with
  | [] => rw [s.examineHead_nil g queue, (s.withClaims claims).examineHead_nil g queue]
  | w :: rest =>
    by_cases clear : s.RiseClear w.line
    · rw [s.examineHead_rises g queue clear, (s.withClaims claims).examineHead_rises g queue clear]; rfl
    · rw [s.examineHead_stays g queue clear, (s.withClaims claims).examineHead_stays g queue clear]

/-! ### RISE claims and start rises at the line block -/

/-- A RISE claim, and a start rise of a line that does not wait, are the judgement alone. -/
theorem State.takeClaim_rises {s : State} {c : Claim} {x : Fin 16}
    (kind : c = .rise x ∨ (c = .startRise x ∧ ∀ g : Fin 6, s.lines[x].group = some g →
      ∀ w ∈ s.groups[g].queue, w.line ≠ x))
    (indicator : s.tripIndicator = false) (scheduled : s.lines[x].mode = .scheduled) :
    s.takeClaim c = s.judgeRise x := by
  rcases kind with rfl | ⟨rfl, absent⟩
  · exact State.takeClaim_taken indicator scheduled
  · rw [State.takeClaim_taken (c := .startRise x) indicator scheduled]
    dsimp only
    rw [s.removeWaiting_absent x absent]

/-- Settles O35: the judgement case by case, and a start rise of a waiting line as the removal before it. -/
theorem risesAreJudgedByTheGuard : Obligations.RisesAreJudgedByTheGuard := by
  refine ⟨?_, ?_⟩
  · intro s u c x rest awake claims hu kind indicator scheduled
    have judged : exec .engineClaims s = .next (u.judgeRise x) := by
      subst hu
      rw [engineClaims_one awake claims, State.takeClaim_rises (s := s.withClaims rest) kind indicator scheduled]
      rfl
    have lines : u.lines = s.lines := by rw [hu]
    have groups : u.groups = s.groups := by rw [hu]
    have sources : u.transit.sources = s.transit.sources ∧ u.transit.steps = s.transit.steps := by rw [hu]; exact ⟨rfl, rfl⟩
    have clear_iff : u.RiseClear x ↔ s.RiseClear x := by rw [hu]; exact .rfl
    rw [judged, ← lines, ← groups, ← clear_iff, ← sources.1, ← sources.2]
    refine ⟨fun active => by rw [State.judgeRise_active active], fun down =>
      ⟨fun ungrouped => by rw [State.judgeRise_ungrouped down ungrouped]; rfl, fun g member => ⟨fun waits => ?_,
        fun empty clear => ?_, fun absent denied => ⟨fun policy limit => ?_, fun policy limit => ?_, fun policy => ?_⟩⟩⟩⟩
    · rw [State.judgeRise_waiting down member waits]
    · rw [State.judgeRise_rises down member empty clear]; rfl
    · rw [State.judgeRise_denied down member absent denied, policy]
      exact congrArg _ (State.deferRise_joins x limit)
    · rw [State.judgeRise_denied down member absent denied, policy]
      exact congrArg _ (State.deferRise_abandoned x limit)
    · rw [State.judgeRise_denied down member absent denied, policy]; rfl
  · intro s x g rest awake claims indicator scheduled member waits
    refine ⟨_, rfl, ?_⟩
    let removed : State := s.setGroupRecord g { s.groups[g] with
      queue := s.groups[g].queue.filter fun w => w.line ≠ x }
    let q := removed.examineHead g
    have frame : LineMoves.Frame removed q := (removed.examineHead_moves g).frame
    have removal : (s.withClaims rest).removeWaiting x = q.withClaims rest := by
      rw [(s.withClaims rest).removeWaiting_waiting x g member waits]
      exact removed.examineHead_withClaims g rest
    have start : exec .engineClaims s = .next ((q.withClaims rest).judgeRise x) := by
      rw [engineClaims_one awake claims,
        State.takeClaim_taken (s := s.withClaims rest) (c := .startRise x) indicator scheduled]
      exact congrArg (fun t : State => Host.Outcome.next (t.judgeRise x)) removal
    have rise : exec .engineClaims (q.withClaims ([.rise x] :: rest)) = .next ((q.withClaims rest).judgeRise x) := by
      rw [engineClaims_one (s := q.withClaims ([.rise x] :: rest)) (frame.rstLow.trans awake) rfl]
      exact congrArg Host.Outcome.next (State.takeClaim_taken (s := q.withClaims rest) (c := .rise x)
        (frame.tripIndicator.trans indicator) ((frame.modes x).trans scheduled))
    exact start.trans rise.symm

end Sys2Proof.Machine

/-! SET_LINE_CONFIG and SET_LINE_MODE: what the owner answers in each case. -/

namespace Sys2Proof.Machine

/-! ### Numbers and codes in parameters -/

theorem named_of_val {n k : Nat} {i : Fin n} (h : k = i.val) : named n k = some i := by
  subst h; exact dif_pos i.isLt

theorem named_of_le {n k : Nat} (h : n ≤ k) : named n k = none := dif_neg (Nat.not_lt.2 h)

theorem Polarity.ofCode_code (p : Polarity) : Polarity.ofCode p.code = some p := by cases p <;> rfl

theorem Polarity.ofCode_of_gt {n : Nat} (h : 1 < n) : Polarity.ofCode n = none := by
  match n, h with
  | _ + 2, _ => rfl

theorem Level.ofCode_code (l : Level) : Level.ofCode l.code = some l := by cases l <;> rfl

theorem Level.ofCode_of_gt {n : Nat} (h : 2 < n) : Level.ofCode n = none := by
  match n, h with
  | _ + 3, _ => rfl

theorem LineMode.ofCode_code (m : LineMode) : LineMode.ofCode m.code = some m := by cases m <;> rfl

theorem LineMode.ofCode_of_gt {n : Nat} (h : 3 < n) : LineMode.ofCode n = none := by
  match n, h with
  | _ + 4, _ => rfl

theorem lineSettings_of_codes {p0 p1 p2 p3 : Word} {i : Fin 16} {polarity : Polarity} {rest safe : Level}
    (h0 : p0.toNat = i.val) (h1 : p1.toNat = polarity.code) (h2 : p2.toNat = rest.code) (h3 : p3.toNat = safe.code) :
    lineSettings p0 p1 p2 p3 = some (i, polarity, rest, safe) := by
  unfold lineSettings
  rw [named_of_val h0, h1, h2, h3, polarity.ofCode_code, rest.ofCode_code, safe.ofCode_code]

theorem lineSettings_out_of_range {p0 p1 p2 p3 : Word}
    (h : 15 < p0.toNat ∨ 1 < p1.toNat ∨ 2 < p2.toNat ∨ 2 < p3.toNat) : lineSettings p0 p1 p2 p3 = none := by
  unfold lineSettings
  split
  · rename_i line polarity rest safe
    rcases h with h | h | h | h
    · rw [named_of_le h] at line; cases line
    · rw [Polarity.ofCode_of_gt h] at polarity; cases polarity
    · rw [Level.ofCode_of_gt h] at rest; cases rest
    · rw [Level.ofCode_of_gt h] at safe; cases safe
  · rfl

/-! ### A record written and a move of its line (R109) -/

theorem State.linesTripped_clear {s : State} (armed : s.trip.state = .armed) (indicator : s.tripIndicator = false) :
    ¬s.linesTripped = true := by
  rw [s.linesTripped_iff, armed, indicator]; decide

/-- A record written and its line moved, in one step: the move alone decides the fall. -/
theorem State.setLine_moveLine (s : State) (i : Fin 16) (l : Line) (level : Level) :
    (s.setLine i l).moveLine i level =
      if l.level = .active ∧ level ≠ .active then (s.setLine i (l.atLevel level)).examineFor i
      else s.setLine i (l.atLevel level) := by
  unfold State.moveLine
  rw [s.setLine_self, s.setLine_setLine]

/-! ### SET_LINE_CONFIG (R112, R113) -/

/-- With the trip controller ARMED, the indicator clear and the timebase STOPPED, the parameters decide. -/
theorem State.setLineConfig_checked {s : State} (armed : s.trip.state = .armed) (indicator : s.tripIndicator = false)
    (stopped : s.timebase.state = .stopped) :
    s.setLineConfig = match lineSettings s.port.p0 s.port.p1 s.port.p2 s.port.p3 with
      | none => (s, .config)
      | some (i, polarity, rest, safe) =>
        if s.lines[i].group.isSome && !Line.mayBeMember rest safe then (s, .config)
        else (s.applyLineConfig i polarity rest safe, .ok) := by
  rw [State.setLineConfig, if_neg (State.linesTripped_clear armed indicator), s.timebaseStopped_iff.2 stopped]
  rfl

/-- A member takes only the levels that a member may have (R108). -/
theorem Line.memberConflict_iff (l : Line) (rest safe : Level) :
    (l.group.isSome && !Line.mayBeMember rest safe) = true ↔ l.group ≠ none ∧ (rest ≠ .inactive ∨ safe = .active) := by
  have allowed := Line.mayBeMember_iff rest safe
  rw [Bool.and_eq_true, Option.isSome_iff_ne_none, Bool.not_eq_true', ← Bool.not_eq_true, allowed, not_and_or, not_not]

/-- A line in a FORCED mode keeps its level. -/
theorem State.applyLineConfig_forced {s : State} {i : Fin 16} (polarity : Polarity) (rest safe : Level)
    (forced : s.lines[i].mode = .forcedActive ∨ s.lines[i].mode = .forcedInactive) :
    s.applyLineConfig i polarity rest safe =
      s.setLine i { s.lines[i] with polarity := polarity, restLevel := rest, safeLevel := safe } := by
  refine if_neg ?_
  rcases forced with forced | forced <;> rw [forced] <;> decide

/-- A line in REST or SCHEDULED mode takes the new rest level. -/
theorem State.applyLineConfig_placed {s : State} {i : Fin 16} (polarity : Polarity) (rest safe : Level)
    (placed : s.lines[i].mode = .rest ∨ s.lines[i].mode = .scheduled) :
    s.applyLineConfig i polarity rest safe =
      (s.setLine i { s.lines[i] with polarity := polarity, restLevel := rest, safeLevel := safe }).moveLine i rest :=
  if_pos placed

/-- Settles O36: the three checks in order, and the record written with the move of the line after it. -/
theorem setLineConfigWritesTheRecord : Obligations.SetLineConfigWritesTheRecord := by
  intro s word
  refine ⟨fun tripped => State.action_of_owner word (if_pos (s.linesTripped_iff.2 tripped)), fun armed indicator =>
    ⟨fun going => ?_, fun stopped => ?_⟩⟩
  · refine State.action_of_owner word ?_
    rw [State.setLineConfig, if_neg (State.linesTripped_clear armed indicator), if_pos]
    rwa [Bool.not_eq_true', ← Bool.not_eq_true, s.timebaseStopped_iff]
  have checked := State.setLineConfig_checked armed indicator stopped
  refine ⟨fun range => ?_, fun i polarity rest safe h0 h1 h2 h3 => ?_⟩
  · rw [lineSettings_out_of_range range] at checked
    exact State.action_of_owner word checked
  rw [lineSettings_of_codes h0 h1 h2 h3] at checked
  dsimp only at checked
  refine ⟨fun member conflict => ?_, fun allowed => ?_⟩
  · rw [if_pos ((Line.memberConflict_iff _ rest safe).2 ⟨member, conflict⟩)] at checked
    exact State.action_of_owner word checked
  · rw [if_neg fun conflict => ?_] at checked
    · refine ⟨fun forced => ?_, fun placed => ⟨_, rfl, ?_⟩⟩
      · rw [State.applyLineConfig_forced polarity rest safe forced] at checked
        exact State.action_of_owner word checked
      · rw [State.applyLineConfig_placed polarity rest safe placed, State.setLine_moveLine] at checked
        exact State.action_of_owner word checked
    · obtain ⟨member, levels⟩ := (Line.memberConflict_iff _ rest safe).1 conflict
      obtain ⟨restInactive, safeDown⟩ := allowed member
      exact levels.elim (· restInactive) safeDown

/-! ### SET_LINE_MODE (R114 to R116) -/

/-- With the trip controller ARMED and the indicator clear, a line and a mode that the parameters name are taken. -/
theorem State.setLineMode_taken {s : State} {i : Fin 16} {mode : LineMode} (armed : s.trip.state = .armed)
    (indicator : s.tripIndicator = false) (h0 : s.port.p0.toNat = i.val) (h1 : s.port.p1.toNat = mode.code) :
    s.setLineMode = s.applyMode i mode := by
  rw [State.setLineMode, if_neg (State.linesTripped_clear armed indicator), named_of_val h0, h1, mode.ofCode_code]

theorem State.setLineMode_out_of_range {s : State} (armed : s.trip.state = .armed) (indicator : s.tripIndicator = false)
    (range : 15 < s.port.p0.toNat ∨ 3 < s.port.p1.toNat) : s.setLineMode = (s, .config) := by
  rw [State.setLineMode, if_neg (State.linesTripped_clear armed indicator)]
  split
  · rename_i line mode
    rcases range with range | range
    · rw [named_of_le range] at line; cases line
    · rw [LineMode.ofCode_of_gt range] at mode; cases mode
  · rfl

/-- REST and FORCED_INACTIVE alike: the mode, the waiting rise removed, the line moved (R115). -/
theorem State.applyMode_lowers {s : State} {i : Fin 16} {mode : LineMode} {level : Level}
    (h : (mode = .rest ∧ level = s.lines[i].restLevel) ∨ (mode = .forcedInactive ∧ level = .inactive)) :
    s.applyMode i mode = (((s.setMode i mode).removeWaiting i).moveLine i level, .ok) := by
  rcases h with ⟨rfl, rfl⟩ | ⟨rfl, rfl⟩ <;> rfl

theorem TimebaseState.holdsRest_iff (b : TimebaseState) : b.holdsRest = true ↔ b = .stopped ∨ b = .awaitSync := by
  cases b <;> decide

/-- The mode of a line is no part of where it waits. -/
theorem State.removeWaiting_setMode_absent {s : State} {i : Fin 16} (mode : LineMode)
    (absent : ∀ g : Fin 6, s.lines[i].group = some g → ∀ w ∈ s.groups[g].queue, w.line ≠ i) :
    (s.setMode i mode).removeWaiting i = s.setMode i mode := by
  refine State.removeWaiting_absent _ i fun g member => ?_
  rw [s.setMode_self] at member
  exact absent g member

theorem State.removeWaiting_setMode_waiting {s : State} {i : Fin 16} {g : Fin 6} (mode : LineMode)
    (member : s.lines[i].group = some g) (waits : ∃ w ∈ s.groups[g].queue, w.line = i) :
    (s.setMode i mode).removeWaiting i = ((s.setMode i mode).setGroupRecord g { s.groups[g] with
      queue := s.groups[g].queue.filter fun w => w.line ≠ i }).examineHead g := by
  refine (s.setMode i mode).removeWaiting_waiting i g ?_ waits
  rw [s.setMode_self]
  exact member

/-- Settles O37: the checks in order, and each mode's effect by the place of the line in its queue. -/
theorem setLineModeMovesTheLine : Obligations.SetLineModeMovesTheLine := by
  intro s word
  refine ⟨fun tripped => State.action_of_owner word (if_pos (s.linesTripped_iff.2 tripped)), fun armed indicator =>
    ⟨fun range => State.action_of_owner word (State.setLineMode_out_of_range armed indicator range),
      fun i mode h0 h1 => ?_⟩⟩
  have taken : s.setLineMode = s.applyMode i mode := State.setLineMode_taken armed indicator h0 h1
  refine ⟨fun level lowers => ⟨fun absent => ⟨_, rfl, ?_⟩, fun g member waits down => ⟨_, rfl, ?_⟩⟩, ?_, ?_, ?_⟩
  · refine State.action_of_owner word ?_
    rw [taken, State.applyMode_lowers lowers, State.removeWaiting_setMode_absent mode absent, State.setMode,
      State.setLine_moveLine]
    rfl
  · have line : ((s.setMode i mode).removeWaiting i).lines[i] = { s.lines[i] with mode := mode } := by
      rw [State.removeWaiting_line, s.setMode_self]
    refine State.action_of_owner word ?_
    rw [taken, State.applyMode_lowers lowers,
      State.moveLine_stays_or_rises _ i level (by rw [line]; exact fun k => down k.1), line,
      State.removeWaiting_setMode_waiting mode member waits]
    rfl
  · rintro rfl stands
    refine ⟨_, rfl, State.action_of_owner word ?_⟩
    rw [taken, State.applyMode, if_pos ((TimebaseState.holdsRest_iff _).2 stands), State.setMode, State.setLine_moveLine]
    rfl
  · rintro rfl going waiting
    refine State.action_of_owner word ?_
    rw [taken, State.applyMode, if_neg fun holds => ((TimebaseState.holdsRest_iff _).1 holds).elim going waiting]
    rfl
  · rintro rfl
    have forced : s.setLineMode = s.forceActive i := taken
    refine ⟨fun active => ?_, fun down denied => ?_, fun down ungrouped => ?_, fun g down member clear =>
      ⟨_, rfl, fun waits => ?_, fun absent => ?_⟩⟩
    · exact State.action_of_owner word (forced.trans (if_pos active))
    · refine State.action_of_owner word (forced.trans ?_)
      rw [State.forceActive, if_neg down, if_neg fun k => denied ((s.clear_iff_riseClear i).1 k)]
    · refine State.action_of_owner word (forced.trans (s.forceActive_rises i down ?_ ?_))
      · intro g _ member; rw [ungrouped] at member; cases member
      · intro g member; rw [ungrouped] at member; cases member
    · exact State.action_of_owner word (forced.trans (s.forceActive_waiting i g down clear member waits))
    · have kept : s.groups[g].queue.filter (fun w => w.line ≠ i) = s.groups[g].queue :=
        List.filter_eq_self.2 fun w hw => decide_eq_true (absent w hw)
      have only : ∀ k : Fin 6, s.lines[i].group = some k → ∀ w ∈ s.groups[k].queue, w.line ≠ i := fun k hk => by
        obtain rfl : g = k := by rw [member] at hk; injection hk
        exact absent
      have same : s.groups.set g { s.groups[g] with queue := s.groups[g].queue } = s.groups :=
        congrArg State.groups (s.setGroupRecord_same g s.groups[g] rfl)
      rw [kept, same]
      exact State.action_of_owner word (forced.trans (s.forceActive_rises i down clear only))

end Sys2Proof.Machine

/-! SET_GROUP, READ_LINE and READ_GROUP: what the owner answers in each case. -/

namespace Sys2Proof.Machine

/-! ### SET_GROUP (R118, R119) -/

theorem Policy.ofCode_code (p : Policy) : Policy.ofCode p.code = some p := by cases p <;> rfl

theorem Policy.ofCode_of_gt {n : Nat} (h : 1 < n) : Policy.ofCode n = none := by
  match n, h with
  | _ + 2, _ => rfl

/-- In STOPPED, with the staging plan neither VALIDATING nor PENDING, the parameters decide. -/
theorem State.setGroup_checked {s : State} {g : Fin 6} {policy : Policy} (stopped : s.timebase.state = .stopped)
    (free : ¬(s.plan.staging = .validating ∨ s.plan.staging = .pending))
    (group : named 6 (lowerByte s.port.p0) = some g) (code : Policy.ofCode (upperByte s.port.p0) = some policy) :
    s.setGroup =
      if 1023 < s.port.p2.toNat ∨ 1023 < s.port.p3.toNat then (s, .config)
      else if s.memberConflict g (maskLines s.port.p1) then (s, .config)
      else if 1 < ((maskLines s.port.p1).filter fun i => s.lines[i].level == .active).length then (s, .interlock)
      else (s.applyGroup g policy (maskLines s.port.p1) s.port.p2.toNat s.port.p3.toNat, .ok) := by
  simp only [State.setGroup, s.timebaseStopped_iff.2 stopped, Bool.not_true, Bool.false_eq_true, if_false, if_neg free,
    group, code]

/-- P0 names no group or no policy (R118). -/
theorem State.setGroup_out_of_range {s : State} (stopped : s.timebase.state = .stopped)
    (free : ¬(s.plan.staging = .validating ∨ s.plan.staging = .pending))
    (range : 5 < lowerByte s.port.p0 ∨ 1 < upperByte s.port.p0) : s.setGroup = (s, .config) := by
  rw [State.setGroup, if_neg (by rw [s.timebaseStopped_iff.2 stopped]; decide), if_neg free]
  split
  · rename_i group code
    rcases range with range | range
    · rw [named_of_le range] at group; cases group
    · rw [Policy.ofCode_of_gt range] at code; cases code
  · rfl

/-- The lines of a mask, in whatever order. -/
theorem maskLines_perm {mask : Word} {proposed : List (Fin 16)} (nodup : proposed.Nodup)
    (named : ∀ i : Fin 16, i ∈ proposed ↔ mask.getLsbD i.val = true) : (maskLines mask).Perm proposed :=
  (List.perm_ext_iff_of_nodup (maskLines_nodup mask) nodup).2 fun i => (mem_maskLines mask i).trans (named i).symm

/-- The checks of a member set do not depend on its order. -/
theorem State.memberConflict_perm (s : State) (g : Fin 6) {l l' : List (Fin 16)} (h : l.Perm l') :
    s.memberConflict g l = true ↔ s.memberConflict g l' = true := by
  simp only [s.memberConflict_iff, h.length_eq, h.mem_iff]

/-- A taken SET_GROUP, with the members read from the mask's bits. -/
theorem State.applyGroup_mask (s : State) (g : Fin 6) (policy : Policy) (mask : Word) (gap limit : Nat) :
    s.applyGroup g policy (maskLines mask) gap limit = { s with
      groups := s.groups.set g { s.groups[g] with gap := gap, policy := policy, limit := limit, queue := [] },
      lines := tabulate fun i => { s.lines[i] with
        group := if mask.getLsbD i.val then some g
          else if s.lines[i].group = some g then none else s.lines[i].group } } := by
  simp only [State.applyGroup, State.setGroupRecord, mem_maskLines]

/-- Settles O38: the checks in order over the mask's lines, whose order none of them sees. -/
theorem setGroupWritesTheGroup : Obligations.SetGroupWritesTheGroup := by
  intro s word
  refine ⟨fun going => State.action_of_owner word (if_pos ?_), fun stopped => ⟨fun busy => ?_, fun editable => ?_⟩⟩
  · rwa [Bool.not_eq_true', ← Bool.not_eq_true, s.timebaseStopped_iff]
  · refine State.action_of_owner word ?_
    rw [State.setGroup, if_neg (by rw [s.timebaseStopped_iff.2 stopped]; decide), if_pos busy]
  have free : ¬(s.plan.staging = .validating ∨ s.plan.staging = .pending) := by
    rcases editable with h | h <;> rw [h] <;> decide
  refine ⟨fun range => State.action_of_owner word (State.setGroup_out_of_range stopped free range),
    fun g policy proposed p0 nodup named => ?_⟩
  have bytes : s.port.p0.toNat = g.val + 256 * policy.code := p0
  have group_lt := g.isLt
  have checked := State.setGroup_checked (g := g) (policy := policy) stopped free
    (named_of_val (by unfold lowerByte; omega))
    (by rw [show upperByte s.port.p0 = policy.code by unfold upperByte; omega, policy.ofCode_code])
  have perm := maskLines_perm nodup named
  have conflict_iff := (s.memberConflict_perm g perm).trans (s.memberConflict_iff g proposed)
  have active_iff := s.twoActive_iff (maskLines_nodup s.port.p1)
  simp only [perm.mem_iff] at active_iff
  refine ⟨fun config => State.action_of_owner word (checked.trans ?_), fun gap limit one four each => ?_⟩
  · by_cases ranges : 1023 < s.port.p2.toNat ∨ 1023 < s.port.p3.toNat
    · exact if_pos ranges
    · rw [if_neg ranges, if_pos (conflict_iff.2 (by rw [← or_assoc] at config; exact config.resolve_left ranges))]
  · have lawful : ¬s.memberConflict g (maskLines s.port.p1) = true := fun conflict => by
      rcases conflict_iff.1 conflict with length | length | ⟨i, hi, bad⟩
      · exact one length
      · exact absurd length (Nat.not_lt.2 four)
      · obtain ⟨own, rest, safe⟩ := each i hi
        rcases bad with ⟨other, foreign⟩ | bad | bad
        exacts [own.elim other foreign, bad rest, safe bad]
    rw [if_neg (by omega), if_neg lawful] at checked
    refine ⟨fun two => ?_, fun apart => ?_⟩
    · exact State.action_of_owner word (checked.trans (if_pos (active_iff.2 two)))
    · rw [if_neg fun k => by
          obtain ⟨i, hi, j, hj, ne, both⟩ := active_iff.1 k
          exact apart i hi j hj ne both, s.applyGroup_mask] at checked
      exact State.action_of_owner word checked

/-! ### READ_LINE and READ_GROUP (R120, R121) -/

/-- The bits of a sum of distinct powers of two are its exponents. -/
theorem testBit_sum_two_pow {l : List (Fin 16)} (sorted : l.Pairwise (· < ·)) (i : Fin 16) :
    (l.map fun k : Fin 16 => 2 ^ k.val).sum.testBit i.val = true ↔ i ∈ l := by
  have exponents : (l.map Fin.val).SortedLT := (sorted.map Fin.val fun _ _ => id).sortedLT
  have indices := Nat.bitIndices_sum_map_two_pow exponents
  rw [List.map_map] at indices
  rw [← Nat.mem_bitIndices, show (fun k : Fin 16 => 2 ^ k.val) = (fun n => 2 ^ n) ∘ Fin.val from rfl, indices]
  exact List.mem_map_of_injective Fin.val_injective

/-- The member mask has a member's bit and no other (R121). -/
theorem State.memberMask_bit (s : State) (g : Fin 6) (i : Fin 16) :
    (s.memberMask g).getLsbD i.val = true ↔ s.lines[i].group = some g := by
  have all_ascend : allLines.Pairwise (· < ·) := by decide
  have ascending : (s.members g).Pairwise (· < ·) := all_ascend.filter _
  have member : i ∈ s.members g ↔ s.lines[i].group = some g := by
    simp [-Fin.getElem_fin, State.members, mem_allLines]
  rw [State.memberMask, BitVec.getLsbD_ofNat, Bool.and_eq_true, decide_eq_true_eq, and_iff_right i.isLt,
    testBit_sum_two_pow ascending, member]

theorem State.readLine_named {s : State} {i : Fin 16} (h : s.port.p0.toNat = i.val) :
    s.readLine = (s.withParams (BitVec.ofNat 16 s.lines[i].age)
      (wordOfBytes s.lines[i].mode.code s.lines[i].level.code)
      (wordOfBytes s.lines[i].polarity.code (match s.lines[i].group with
        | some g => g.val
        | none => 255))
      (wordOfBytes s.lines[i].restLevel.code s.lines[i].safeLevel.code), .ok) := by
  unfold State.readLine
  rw [named_of_val h]
  exact rfl

theorem State.readGroup_members {s : State} {g : Fin 6} (h : s.port.p0.toNat = g.val) (view : s.port.p1 = 0#16) :
    s.readGroup = (s.withParams (s.memberMask g) (BitVec.ofNat 16 s.groups[g].gap)
      (BitVec.ofNat 16 s.groups[g].limit) (BitVec.ofNat 16 s.groups[g].policy.code), .ok) := by
  unfold State.readGroup
  rw [named_of_val h]
  exact if_pos view

theorem State.readGroup_queue {s : State} {g : Fin 6} (h : s.port.p0.toNat = g.val) (view : s.port.p1 = 1#16) :
    s.readGroup = (s.withParams (BitVec.ofNat 16 s.groups[g].queue.length)
      (wordOfBytes (queueLine s.groups[g].queue 0) (queueLine s.groups[g].queue 1))
      (wordOfBytes (queueLine s.groups[g].queue 2) (queueLine s.groups[g].queue 3))
      (BitVec.ofNat 16 (match s.groups[g].queue with
        | w :: _ => w.wait
        | [] => 0)), .ok) := by
  have head : (match s.groups[g].queue.head? with
      | some w => w.wait
      | none => 0) = match s.groups[g].queue with
        | w :: _ => w.wait
        | [] => 0 := by cases s.groups[g].queue <;> rfl
  unfold State.readGroup
  rw [named_of_val h, ← head]
  exact (if_neg (by rw [view]; decide)).trans (if_pos view)

/-- A group or a view that does not exist (R121). -/
theorem State.readGroup_out_of_range {s : State} (range : 5 < s.port.p0.toNat ∨ 1 < s.port.p1.toNat) :
    s.readGroup = (s, .config) := by
  unfold State.readGroup
  split
  · rfl
  · rename_i g group
    have view : 1 < s.port.p1.toNat := range.resolve_left fun k => by rw [named_of_le k] at group; cases group
    have other (n : Word) (small : n.toNat ≤ 1) : s.port.p1 ≠ n := fun same => by
      rw [same] at view; exact absurd view (Nat.not_lt.2 small)
    exact (if_neg (other 0#16 (by decide))).trans (if_neg (other 1#16 (by decide)))

/-- Settles O39: each read-back by the number in P0 and the view in P1. -/
theorem lineAndGroupReadBacks : Obligations.LineAndGroupReadBacks := by
  refine ⟨fun s word => ⟨fun range => State.action_of_owner word ?_, fun i p0 => ?_⟩,
    fun s word => ⟨fun range => State.action_of_owner word (State.readGroup_out_of_range range), fun g p0 =>
      ⟨fun view => ⟨s.memberMask g, s.memberMask_bit g, ?_⟩, fun view => ⟨queueLine s.groups[g].queue, fun _ => rfl, ?_⟩⟩⟩⟩
  · unfold State.readLine
    rw [named_of_le range]
  · exact State.action_of_owner word (State.readLine_named p0)
  · exact State.action_of_owner word (State.readGroup_members p0 view)
  · exact State.action_of_owner word (State.readGroup_queue p0 view)

end Sys2Proof.Machine

/-! Slots and requests: SET_SLOT and READ_SLOT, requests placed, refused and dropped. -/

namespace Sys2Proof.Machine

/-- An event with RST# high, with the state it comes to. -/
theorem State.event_of_eq {s t u : State} (high : s.rstLow = false) (h : t = u) : s.event t = .next u := by
  rw [State.event_next high, h]

/-! ### The layout of a slot (R137, R139) -/

theorem yesNoOfCode_bitOf (b : Bool) : yesNoOfCode (bitOf b) = some b := by cases b <;> rfl

theorem yesNoOfCode_of_gt {n : Nat} (h : 1 < n) : yesNoOfCode n = none := by
  match n, h with
  | _ + 2, _ => rfl

theorem slotSettings_of_codes {p0 p1 p2 p3 : Word} {slot : Fin 8} {channel : Fin 9} {present tripOnLimit : Bool}
    (h0 : p0.toNat = slot.val + 256 * channel.val) (h1 : p1.toNat = bitOf present + 256 * bitOf tripOnLimit)
    (limits : present = true → p2.toNat ≤ p3.toNat ∧ p3.toNat ≤ 4095) :
    slotSettings p0 p1 p2 p3 =
      some (slot, channel, if present then some ⟨p2.toNat, p3.toNat⟩ else none, tripOnLimit) := by
  have slot_lt := slot.isLt
  have present_le := bitOf_le_one present
  have slot_byte : lowerByte p0 = slot.val := by unfold lowerByte; omega
  have channel_byte : upperByte p0 = channel.val := by unfold upperByte; omega
  have present_byte : lowerByte p1 = bitOf present := by unfold lowerByte; omega
  have trip_byte : upperByte p1 = bitOf tripOnLimit := by unfold upperByte; omega
  have window : windowOf present p2 p3 = some (if present then some ⟨p2.toNat, p3.toNat⟩ else none) := by
    cases present with
    | true => exact if_pos (limits rfl)
    | false => rfl
  simp only [slotSettings, named_of_val slot_byte, named_of_val channel_byte, present_byte, trip_byte,
    yesNoOfCode_bitOf, window]

theorem slotSettings_out_of_range {p0 p1 p2 p3 : Word}
    (h : 7 < lowerByte p0 ∨ 8 < upperByte p0 ∨ 1 < lowerByte p1 ∨ 1 < upperByte p1 ∨
      (lowerByte p1 = 1 ∧ (4095 < p2.toNat ∨ 4095 < p3.toNat ∨ p3.toNat < p2.toNat))) :
    slotSettings p0 p1 p2 p3 = none := by
  unfold slotSettings
  split
  · rename_i slot channel present tripOnLimit
    rcases h with h | h | h | h | ⟨h, limits⟩
    · rw [named_of_le h] at slot; cases slot
    · rw [named_of_le h] at channel; cases channel
    · rw [yesNoOfCode_of_gt h] at present; cases present
    · rw [yesNoOfCode_of_gt h] at tripOnLimit; cases tripOnLimit
    · rw [h] at present
      cases present
      rw [windowOf, if_pos rfl, if_neg (by omega)]
  · rfl

/-- The limits that a read-back of a slot writes: those of its window, or 0 (R139). -/
def Slot.limits (r : Slot) : Nat × Nat :=
  match r.window with
  | some w => (w.low, w.high)
  | none => (0, 0)

/-- A slot's read-back is its settings again (R139). -/
theorem slotSettings_of_slot {slot : Fin 8} {r : Slot}
    (lawful : ∀ w, r.window = some w → w.low ≤ w.high ∧ w.high ≤ 4095) :
    slotSettings (wordOfBytes slot.val r.channel.val) (wordOfBytes (bitOf r.window.isSome) (bitOf r.tripOnLimit))
      (BitVec.ofNat 16 r.limits.1) (BitVec.ofNat 16 r.limits.2) = some (slot, r.channel, r.window, r.tripOnLimit) := by
  have slot_lt := slot.isLt
  have channel_lt := r.channel.isLt
  have present_le := bitOf_le_one r.window.isSome
  have trip_le := bitOf_le_one r.tripOnLimit
  have p0 : (wordOfBytes slot.val r.channel.val).toNat = slot.val + 256 * r.channel.val := by
    rw [wordOfBytes, BitVec.toNat_ofNat]; omega
  have p1 : (wordOfBytes (bitOf r.window.isSome) (bitOf r.tripOnLimit)).toNat
      = bitOf r.window.isSome + 256 * bitOf r.tripOnLimit := by
    rw [wordOfBytes, BitVec.toNat_ofNat]; omega
  have fits : r.limits.1 ≤ r.limits.2 ∧ r.limits.2 ≤ 4095 := by
    unfold Slot.limits
    split
    · rename_i w window; exact lawful w window
    · decide
  have low : (BitVec.ofNat 16 r.limits.1).toNat = r.limits.1 := by rw [BitVec.toNat_ofNat]; omega
  have high : (BitVec.ofNat 16 r.limits.2).toNat = r.limits.2 := by rw [BitVec.toNat_ofNat]; omega
  have window : (if r.window.isSome then some (⟨r.limits.1, r.limits.2⟩ : Window) else none) = r.window := by
    rcases r with ⟨channel, _ | w, tripOnLimit, drops⟩ <;> rfl
  rw [slotSettings_of_codes p0 p1 (by rw [low, high]; exact fun _ => fits), low, high, window]

/-! ### SET_SLOT and READ_SLOT (R137 to R139) -/

theorem State.setSlot_taken {s : State} {slot : Fin 8} {channel : Fin 9} {window : Option Window} {tripOnLimit : Bool}
    (h : slotSettings s.port.p0 s.port.p1 s.port.p2 s.port.p3 = some (slot, channel, window, tripOnLimit)) :
    s.setSlot = (s.setSlotRecord slot ⟨channel, window, tripOnLimit, s.sampler.slots[slot].drops⟩, .ok) := by
  rw [State.setSlot, h]

theorem State.setSlot_out_of_range {s : State} (h : slotSettings s.port.p0 s.port.p1 s.port.p2 s.port.p3 = none) :
    s.setSlot = (s, .config) := by
  rw [State.setSlot, h]

/-- A slot's own record written again changes nothing. -/
theorem State.setSlotRecord_same (s : State) (slot : Fin 8) : s.setSlotRecord slot s.sampler.slots[slot] = s := by
  have same : s.sampler.slots.set slot s.sampler.slots[slot] = s.sampler.slots := Vector.set_getElem_self _
  rw [State.setSlotRecord, same]

/-- The state in which READ_SLOT has written its words (R139). -/
def State.slotReadBack (s : State) (slot : Fin 8) : State :=
  s.withParams (wordOfBytes slot.val s.sampler.slots[slot].channel.val)
    (wordOfBytes (bitOf s.sampler.slots[slot].window.isSome) (bitOf s.sampler.slots[slot].tripOnLimit))
    (BitVec.ofNat 16 s.sampler.slots[slot].limits.1) (BitVec.ofNat 16 s.sampler.slots[slot].limits.2)

theorem State.readSlot_named {s : State} {slot : Fin 8} (h : lowerByte s.port.p0 = slot.val) :
    s.readSlot = (s.slotReadBack slot, .ok) := by
  rw [State.readSlot, named_of_val h]
  rfl

/-- Settles O41: the settings decide SET_SLOT, and those that READ_SLOT writes are the slot's own. -/
theorem slotsAreWrittenAndReadBack : Obligations.SlotsAreWrittenAndReadBack := by
  refine ⟨fun s word => ⟨fun range => ?_, fun slot channel present tripOnLimit p0 p1 limits => ?_⟩,
    fun s word => ⟨fun range => ?_, fun slot p0 => ⟨s.slotReadBack slot, ?_, ?_, ?_⟩⟩⟩
  · exact State.action_of_owner word (State.setSlot_out_of_range (slotSettings_out_of_range range))
  · exact State.action_of_owner word (State.setSlot_taken (slotSettings_of_codes p0 p1 limits))
  · refine State.action_of_owner word (?_ : s.readSlot = (s, .config))
    rw [State.readSlot, lowerByte, named_of_le range]
  · unfold State.slotReadBack
    generalize s.sampler.slots[slot] = r
    rcases r with ⟨channel, _ | w, tripOnLimit, drops⟩ <;> rfl
  · exact State.action_of_owner word (State.readSlot_named p0)
  · rintro u rfl lawful
    obtain ⟨high, _⟩ := word
    refine State.action_of_owner ⟨high, rfl⟩ ((State.setSlot_taken (slotSettings_of_slot lawful)).trans ?_)
    exact congrArg (·, ResultCode.ok) (State.setSlotRecord_same _ slot)

/-! ### Requests (R140 to R143) -/

theorem State.sampleNow_out_of_range {s : State} (h : 7 < lowerByte s.port.p0) : s.sampleNow = (s, .config) := by
  rw [State.sampleNow, named_of_le h]

theorem State.sampleNow_named {s : State} {slot : Fin 8} (h : lowerByte s.port.p0 = slot.val) :
    s.sampleNow = if s.queueFull then (s, .full) else (s.placeRequest slot .software, .ok) := by
  rw [State.sampleNow, named_of_val h]

theorem State.samplerTakesTag_none {s : State} (absent : s.transit.tags = []) : s.samplerTakesTag = s := by
  rw [State.samplerTakesTag, absent]

theorem State.samplerTakesTag_oldest {s : State} {tag : SampleTag} {rest : List SampleTag}
    (tags : s.transit.tags = tag :: rest) :
    s.samplerTakesTag = (s.withTransit { s.transit with tags := rest }).takeTag tag := by
  rw [State.samplerTakesTag, tags]
  rfl

/-- Settles O42: a queue that holds four refuses or drops the request, and one that does not places it. -/
theorem sampleRequestsArePlacedOrDropped : Obligations.SampleRequestsArePlacedOrDropped := by
  have room {s : State} (h : s.sampler.queue.length < 4) : ¬s.queueFull = true := fun full =>
    absurd (s.queueFull_iff.1 full) (Nat.not_le.2 h)
  refine ⟨fun s word => ⟨fun range => ?_, fun slot p0 => ⟨fun full => ?_, fun free served => ?_⟩⟩,
    fun s high => ⟨fun absent => ?_, fun tag rest u tags u_eq => ?_⟩⟩
  · exact State.action_of_owner word (State.sampleNow_out_of_range range)
  · exact State.action_of_owner word ((State.sampleNow_named p0).trans (if_pos (s.queueFull_iff.2 full)))
  · refine State.action_of_owner word ((State.sampleNow_named p0).trans ?_)
    rw [if_neg (room free), s.placeRequest_eq slot .software served]
  · exact State.event_of_eq high (State.samplerTakesTag_none absent)
  · subst u_eq
    have taken := State.samplerTakesTag_oldest tags
    refine ⟨fun full => State.event_of_eq high (taken.trans ?_), fun free served =>
      State.event_of_eq high (taken.trans ?_)⟩
    · exact if_pos (s.queueFull_iff.2 full)
    · exact (if_neg (room free)).trans (State.placeRequest_eq _ tag.slot _ served)

end Sys2Proof.Machine

/-! Conversions: the record a completed conversion appends to the ring, and what the converter does after it. -/

namespace Sys2Proof.Machine

/-! ### Flags (R204) -/

/-- A flag set on a condition is a word of flags added. -/
theorem State.setFlagIf_eq (s : State) (c : Bool) (f : Flag) :
    s.setFlagIf c f = s.withFlags (if c then f.mask else 0x0000#13) := by
  cases c with
  | true => rfl
  | false => simp [State.setFlagIf, State.withFlags]

theorem State.withFlags_withFlags (s : State) (a b : BitVec 13) :
    (s.withFlags a).withFlags b = s.withFlags (a ||| b) := by
  simp only [State.withFlags, BitVec.or_assoc]

theorem State.withFlags_withTransit (s : State) (a : BitVec 13) (x : Transit) :
    (s.withFlags a).withTransit x = (s.withTransit x).withFlags a := rfl

/-! ### The append (R162 to R165, R169) -/

/-- The ring once record `r` has joined it: a full ring has lost its head to the lost counter (R162, R163). -/
def ResultRing.append (ring : ResultRing) (r : Result) : ResultRing :=
  { ring with
    records := (if ring.records.length < 16 then ring.records else ring.records.tail) ++ [r],
    lost := if ring.records.length < 16 then ring.lost else min (ring.lost + 1) 255 }

/-- The state in which record `r` has joined the ring: a marked record sets LIMIT and for a trip-on-limit slot sends its
source, and a ring filled to the watermark sets RESULTS (R165, R169). -/
def State.recorded (s : State) (r : Result) : State :=
  State.withFlags { s with
    ring := s.ring.append r,
    transit := { s.transit with
      sources := if r.mark ≠ .neither ∧ s.sampler.slots[r.slot].tripOnLimit = true then
          s.transit.sources ++ [⟨.limit r.slot, s.transit.steps⟩]
        else s.transit.sources } }
    ((if r.mark = .neither then 0x0000#13 else 0x0040#13)
      ||| (if s.ring.watermark ≤ (s.ring.append r).records.length then 0x0020#13 else 0x0000#13))

/-- The record of conversion `c` (R147, R162 to R164). -/
def State.recordOf (s : State) (c : InConversion) : Result :=
  ⟨c.request.slot, c.request.channel, c.request.origin, corrected c.raw s.converter.trim, c.wait,
    limitMark s.sampler.slots[c.request.slot].window (corrected c.raw s.converter.trim),
    decide (16 ≤ s.ring.records.length)⟩

theorem State.setFlagIf_limit (s : State) (mark : LimitMark) :
    s.setFlagIf (mark != .neither) .limit = s.withFlags (if mark = .neither then 0x0000#13 else 0x0040#13) := by
  rw [State.setFlagIf_eq]
  cases mark <;> rfl

/-- The LIMIT source of a marked record of a trip-on-limit slot (R165). -/
theorem State.sendLimit_eq (s : State) (mark : LimitMark) (trips : Bool) (slot : Fin 8) :
    (if (mark != .neither && trips) = true then s.sendSource (.limit slot) else s) = s.withTransit { s.transit with
      sources := if mark ≠ .neither ∧ trips = true then s.transit.sources ++ [⟨.limit slot, s.transit.steps⟩]
        else s.transit.sources } := by
  cases mark <;> cases trips <;> rfl

theorem State.append_eq (s : State) (c : InConversion) :
    s.append c.request.slot c.request.channel c.request.origin (corrected c.raw s.converter.trim) c.wait
      = s.recorded (s.recordOf c) := by
  unfold State.append State.recorded ResultRing.append
  simp only [State.setFlagIf_limit, State.sendLimit_eq, State.setFlagIf_eq _ _ .results, State.withFlags_withTransit,
    State.withFlags_withFlags, Config.ringCapacity, List.drop_one]
  by_cases full : 16 ≤ s.ring.records.length
  · simp only [State.recordOf, full, decide_true, if_true, if_neg (Nat.not_lt.2 full), decide_eq_true_eq]
    rfl
  · simp only [State.recordOf, full, decide_false, Bool.false_eq_true, if_false, if_pos (Nat.lt_of_not_le full),
      decide_eq_true_eq]
    rfl

/-! ### The completion (R147) -/

theorem State.completeConversion_converting {s : State} {c : InConversion} (state : s.converter.state = .converting c) :
    s.completeConversion = (s.recorded (s.recordOf c)).serveQueue := by
  rw [← s.append_eq, State.completeConversion, state]

theorem State.completeConversion_calPending {s : State} {c : InConversion} (state : s.converter.state = .calPending c) :
    s.completeConversion = (s.recorded (s.recordOf c)).beginCalibration := by
  rw [← s.append_eq, State.completeConversion, state]

theorem State.completeConversion_idle {s : State} (idle : s.converter.state = .idle) : s.completeConversion = s := by
  rw [State.completeConversion, idle]

/-- Settles O43: the queue's head is served, and the record of the conversion joins the ring before that. -/
theorem conversionsEndInTheRing : Obligations.ConversionsEndInTheRing := by
  refine ⟨fun s queue => s.serveQueue_empty queue, fun s r rest queue => s.serveQueue_takes queue, fun s high =>
    ⟨fun idle => State.event_of_eq high (State.completeConversion_idle idle), ?_⟩⟩
  rintro c _ rfl _
  exact ⟨corrected c.raw s.converter.trim, (s.recordOf c).mark, (s.ring.append (s.recordOf c)).records,
    s.recorded (s.recordOf c), corrected_eq _ _, limitMark_below _ _, limitMark_above _ _, rfl, rfl,
    fun state => State.event_of_eq high (State.completeConversion_converting state),
    fun state => State.event_of_eq high (State.completeConversion_calPending state)⟩

end Sys2Proof.Machine

/-! The calibration: one trial of each trim bit, the five-step search they make, and the converter's actions by the
state they find. -/

namespace Sys2Proof.Machine

/-! ### One trial (R151, R152) -/

theorem State.completeTrial_idle {s : State} (idle : s.converter.state = .idle) : s.completeTrial = s := by
  rw [State.completeTrial, idle]

/-- Above bit 0 the next trial begins. -/
theorem State.completeTrial_above {s : State} {kept bit : Nat} {raw : BitVec 12}
    (state : s.converter.state = .calibrating kept (bit + 1) raw) :
    s.completeTrial = s.startTrial (keptAfter kept (bit + 1) raw) bit := by
  rw [State.completeTrial, state]

/-- At bit 0 the calibration completes. -/
theorem State.completeTrial_last {s : State} {kept : Nat} {raw : BitVec 12}
    (state : s.converter.state = .calibrating kept 0 raw) :
    s.completeTrial = s.completeCalibration (keptAfter kept 0 raw) := by
  rw [State.completeTrial, state]

/-- Settles O45: the kept value after a trial, and the trial's end above bit 0 and at bit 0. -/
theorem calibrationTriesEachBit : Obligations.CalibrationTriesEachBit := by
  intro s high
  refine ⟨fun idle => State.event_of_eq high (State.completeTrial_idle idle), fun kept bit raw state =>
    ⟨keptAfter kept bit raw, fun fits => ?_, fun above => ?_, ?_, ?_⟩⟩
  · exact (keptAfter_eq kept bit raw).trans (if_pos (by zify; omega))
  · exact (keptAfter_eq kept bit raw).trans (if_neg (by zify; omega))
  · rintro b rfl
    exact State.event_of_eq high (State.completeTrial_above state)
  · rintro rfl
    exact State.event_of_eq high (State.completeTrial_last state)

/-! ### The completed calibration (R152) -/

theorem State.serveQueue_leaves (s : State) : s.serveQueue.interrupts = s.interrupts ∧
    s.serveQueue.converter.trim = s.converter.trim ∧ s.serveQueue.converter.report = s.converter.report := by
  cases queue : s.sampler.queue with
  | nil => rw [s.serveQueue_empty queue]; exact ⟨rfl, rfl, rfl⟩
  | cons r rest => rw [s.serveQueue_takes queue]; exact ⟨rfl, rfl, rfl⟩

theorem State.setFlag_flag (s : State) (f : Flag) : (s.setFlag f).flag f = true := by
  have own : f.mask.getLsbD f.bit = true := by cases f <;> rfl
  rw [State.flag, State.setFlag_interrupts, Interrupts.withFlag, BitVec.getLsbD_or, own, Bool.or_true]

/-- The completed calibration holds its trim, reports it and has set CALDONE (R152). -/
theorem State.completeCalibration_result (s : State) (trim : Nat) :
    (s.completeCalibration trim).converter.trim = trim ∧
    (s.completeCalibration trim).converter.report = (if trim = 0 ∨ trim = 31 then .atLimit else .done) ∧
    (s.completeCalibration trim).flag .caldone = true := by
  unfold State.completeCalibration
  obtain ⟨interrupts, kept, report⟩ := State.serveQueue_leaves (State.setFlag { s with
    converter := { s.converter with
      trim := trim, report := if trim = 0 ∨ trim = 31 then .atLimit else .done } } .caldone)
  refine ⟨kept, report, ?_⟩
  rw [State.flag, interrupts]
  exact State.setFlag_flag _ _

/-! ### The search over five trials (R151, R152) -/

/-- The search stands at `kept` and can still reach the trims from there to below `kept + width`: what is kept is not too
great for a reading of `low`, and the greatest trim that suits a reading of `high` is not beyond reach. -/
structure TrimSearch (low high kept width : Nat) : Prop where
  inside : kept + width ≤ 32
  most   : kept ≤ 2064 - low
  least  : min 31 (2064 - high) < kept + width

theorem TrimSearch.start (low high : Nat) : TrimSearch low high 0 (2 ^ 5) :=
  ⟨Nat.le_refl _, Nat.zero_le _, by omega⟩

/-- A trial halves the width of the search. -/
theorem TrimSearch.trial {low high kept bit : Nat} {raw : BitVec 12} (h : TrimSearch low high kept (2 ^ (bit + 1)))
    (above : low ≤ raw.toNat) (below : raw.toNat ≤ high) :
    TrimSearch low high (keptAfter kept bit raw) (2 ^ bit) := by
  obtain ⟨inside, most, least⟩ := h
  rw [Nat.pow_succ] at inside least
  rw [keptAfter_eq]
  split
  · exact ⟨by omega, by omega, by omega⟩
  · exact ⟨by omega, by omega, by omega⟩

/-- With no bit left the kept value is the trim of the bounds. -/
theorem TrimSearch.found {low high kept : Nat} (h : TrimSearch low high kept (2 ^ 0)) :
    min 31 (2064 - high) ≤ kept ∧ kept ≤ min 31 (2064 - low) := by
  obtain ⟨inside, most, least⟩ := h
  omega

/-- A calibration stands before the trial of `bit`. -/
def State.Searching (low high bit : Nat) (s : State) : Prop :=
  ∃ kept raw, s.converter.state = .calibrating kept bit raw ∧ TrimSearch low high kept (2 ^ (bit + 1))

/-- A calibration conversion in flight has read MREF between `low` and `high`. -/
def State.ReadsWithin (low high : Nat) (s : State) : Prop :=
  ∀ kept bit raw, s.converter.state = .calibrating kept bit raw → low ≤ raw.toNat ∧ raw.toNat ≤ high

theorem State.Searching.completeTrial {s : State} {low high bit : Nat} (h : s.Searching low high (bit + 1))
    (reads : s.ReadsWithin low high) : s.completeTrial.Searching low high bit := by
  obtain ⟨kept, raw, state, search⟩ := h
  obtain ⟨above, below⟩ := reads kept _ raw state
  rw [State.completeTrial_above state]
  exact ⟨_, _, rfl, search.trial above below⟩

/-- Settles O46: four trials hand the search on, and the fifth ends it with one trim left. -/
theorem calibrationFindsTheTrim : Obligations.CalibrationFindsTheTrim := by
  intro run low high ⟨first, begins⟩ trials
  have next (k : Nat) (hk : k < 5) : run (k + 1) = (run k).completeTrial := by
    obtain ⟨up, step, _⟩ := trials k hk
    have ends : exec .calibrationConversion (run k) = .next (run k).completeTrial := State.event_next up _
    rw [ends] at step
    injection step with same
    exact same.symm
  have reads (k : Nat) (hk : k < 5) : (run k).ReadsWithin low high := by
    obtain ⟨_, _, within⟩ := trials k hk
    exact within
  have advance {k bit : Nat} (hk : k < 5) (h : (run k).Searching low high (bit + 1)) :
      (run (k + 1)).Searching low high bit := next k hk ▸ h.completeTrial (reads k hk)
  have start : (run 0).Searching low high 4 := ⟨0, first, begins, .start low high⟩
  obtain ⟨kept, raw, state, search⟩ : (run 4).Searching low high 0 :=
    advance (by decide) <| advance (by decide) <| advance (by decide) <| advance (by decide) start
  obtain ⟨above, below⟩ := reads 4 (by decide) kept 0 raw state
  obtain ⟨least, most⟩ := (search.trial above below).found
  have ends : run 5 = (run 4).completeCalibration (keptAfter kept 0 raw) :=
    (next 4 (by decide)).trans (State.completeTrial_last state)
  obtain ⟨trim, report, caldone⟩ := (run 4).completeCalibration_result (keptAfter kept 0 raw)
  rw [ends, trim]
  exact ⟨least, most, report, caldone⟩

/-! ### The converter's actions (R149, R150, R154) -/

/-- Settles O44: each owner by the converter state it finds, SET_CONVERTER by its divider first. -/
theorem converterActionsByState : Obligations.ConverterActionsByState := by
  have divider_iff (n : Nat) : (!converterDividers.contains n) = true ↔ n ∉ [2, 4, 8, 16] := by
    rw [Bool.not_eq_true', ← Bool.not_eq_true, List.contains_iff_mem, converterDividers]
  refine ⟨fun s word => ⟨fun other => ?_, fun divider busy => ?_, fun divider idle => ?_⟩,
    fun s word => ⟨fun idle => ?_, fun c state => ?_, fun busy => ?_⟩,
    fun s word => ⟨fun kept bit raw state => ?_, fun c state => ?_, fun other => ?_⟩⟩
  · exact State.action_of_owner word (if_pos ((divider_iff _).2 other))
  · exact State.action_of_owner word ((if_neg fun k => (divider_iff _).1 k divider).trans (if_pos busy))
  · exact State.action_of_owner word ((if_neg fun k => (divider_iff _).1 k divider).trans (if_neg fun k => k idle))
  · refine State.action_of_owner word (?_ : s.calibrate = (s.beginCalibration, .ok))
    rw [State.calibrate, idle]
  · refine State.action_of_owner word (?_ : s.calibrate = (s.setConverterState (.calPending c), .ok))
    rw [State.calibrate, state]
  · refine State.action_of_owner word (?_ : s.calibrate = (s, .busy))
    rcases busy with ⟨c, state⟩ | ⟨kept, bit, raw, state⟩ <;> rw [State.calibrate, state]
  · refine State.action_of_owner word (?_ : s.cancelCal = ((s.setCalReport .cancelled).serveQueue, .ok))
    rw [State.cancelCal, state]
  · refine State.action_of_owner word
      (?_ : s.cancelCal = ((s.setCalReport .cancelled).setConverterState (.converting c), .ok))
    rw [State.cancelCal, state]
  · refine State.action_of_owner word (?_ : s.cancelCal = (s, .state))
    rcases other with state | ⟨c, state⟩ <;> rw [State.cancelCal, state]

end Sys2Proof.Machine

/-! The result ring at the host: the record read that fills the view, the view's registers, and SET_RING. -/

namespace Sys2Proof.Machine

/-! ### The record read (R166, R167) -/

theorem State.readHead_empty {s : State} (empty : s.ring.records = []) :
    s.readHead = { s with ring := { s.ring with view := none } } := by
  rw [State.readHead, empty]

theorem State.readHead_takes {s : State} {r : Result} {rest : List Result} (records : s.ring.records = r :: rest) :
    s.readHead = { s with ring := { s.ring with records := rest, view := some r } } := by
  rw [State.readHead, records]

/-- The registers 10h to 13h read the four words of the view (R194, R200). -/
theorem State.readRegister_view (s : State) :
    s.readRegister 0x10#7 = viewWord0 s.ring.view ∧ s.readRegister 0x11#7 = viewWord1 s.ring.view ∧
      s.readRegister 0x12#7 = viewWord2 s.ring.view ∧ s.readRegister 0x13#7 = viewWord3 s.ring.view :=
  ⟨rfl, rfl, rfl, rfl⟩

/-- The view is filled before the word at 10h is taken from it (R166, R192). -/
theorem exec_recordRead_due {s t : State} (high : s.rstLow = false) (due : s.port.phase = .recordDue)
    (read : s.readHead = t) :
    exec .recordRead s =
      .next { t with port := { t.port with phase := .reading 0x10#7, readWord := viewWord0 t.ring.view } } := by
  have arm : exec .recordRead s = execRecordRead s := rfl
  rw [arm, execRecordRead, due, read, ← t.readRegister_view.1]
  exact State.event_next high _

/-- Settles O7: the head record, or none, goes into the view, and the word returned is read from there. -/
theorem recordReadTakesTheHead : Obligations.RecordReadTakesTheHead := by
  refine ⟨fun s r rest high due records => exec_recordRead_due high due (State.readHead_takes records),
    fun s high due empty => exec_recordRead_due high due (State.readHead_empty empty), State.readRegister_view,
    fun s none_viewed => ?_⟩
  obtain ⟨word0, word1, word2, word3⟩ := s.readRegister_view
  rw [word0, word1, word2, word3, none_viewed]
  exact ⟨rfl, rfl, rfl, rfl⟩

/-! ### SET_RING (R169) -/

theorem State.setRing_out_of_range {s : State} (range : s.port.p0.toNat = 0 ∨ 16 < s.port.p0.toNat) :
    s.setRing = (s, .config) :=
  if_pos range

theorem State.setRing_in_range {s : State} (least : 1 ≤ s.port.p0.toNat) (most : s.port.p0.toNat ≤ 16) :
    s.setRing = (State.withFlags { s with ring := { s.ring with watermark := s.port.p0.toNat } }
      (if s.port.p0.toNat ≤ s.ring.records.length then 0x0020#13 else 0x0000#13), .ok) := by
  have within : ¬(s.port.p0.toNat = 0 ∨ 16 < s.port.p0.toNat) := by omega
  have results : Flag.results.mask = 0x0020#13 := rfl
  simp only [State.setRing, if_neg within, State.setFlagIf_eq, decide_eq_true_eq, results]

/-- Settles O48: what the owner answers to a watermark out of range and to one in range. -/
theorem setRingSetsTheWatermark : Obligations.SetRingSetsTheWatermark := fun _ word =>
  ⟨fun range => State.action_of_owner word (State.setRing_out_of_range range),
    fun least most => State.action_of_owner word (State.setRing_in_range least most)⟩

end Sys2Proof.Machine

/-! The fault inputs: a sample and its filter, the filter's expiry, and SET_FAULT. -/

namespace Sys2Proof.Machine

/-! ### The filter of one input (R173, R174) -/

theorem FaultPolarity.asserts_eq {p : FaultPolarity} {pinHigh asserted : Bool}
    (h : asserted = true ↔ (pinHigh = true ↔ p = .assertHigh)) : p.asserts pinHigh = asserted := by
  rw [Bool.eq_iff_iff, h]
  cases p <;> simp [FaultPolarity.asserts]

/-- A fault input after the filter has judged a sample (R174); `State.judgeSample_stamped` is what the part does with
it. -/
def FaultInput.judged (f : FaultInput) (asserted : Bool) : FaultInput :=
  if f.enabled = false then f
  else if asserted = false then { f with count := 0, qualified := false }
  else if f.qualified = true then f
  else if f.count < f.qualCount then { f with count := f.count + 1 }
  else { f with qualified := true }

section

variable {f : FaultInput} {asserted : Bool}

theorem FaultInput.judged_disabled (disabled : f.enabled = false) : f.judged asserted = f :=
  if_pos disabled

theorem FaultInput.judged_deasserted (enabled : f.enabled = true) (deasserted : asserted = false) :
    f.judged asserted = { f with count := 0, qualified := false } := by
  rw [FaultInput.judged, if_neg (by simp [enabled]), if_pos deasserted]

/-- An asserted sample of an enabled input is judged by condition and count. -/
theorem FaultInput.judged_asserted (enabled : f.enabled = true) (is_asserted : asserted = true) :
    f.judged asserted = if f.qualified = true then f
      else if f.count < f.qualCount then { f with count := f.count + 1 } else { f with qualified := true } := by
  rw [FaultInput.judged, if_neg (by simp [enabled]), if_neg (by simp [is_asserted])]

end

/-- The state after a sample that leaves input `i` as `g`: the sample is stamped, and a qualification begun in it sends
the input's source (R174). -/
def State.sampled (s : State) (i : Fin 2) (g : FaultInput) : State :=
  { s with
    trip := { s.trip with faults := s.trip.faults.set i { g with lastSample := some s.environment.clk } },
    transit := { s.transit with
      sources := if g.qualified = true ∧ s.trip.faults[i].qualified = false then
          s.transit.sources ++ [⟨faultSource i, s.transit.steps⟩]
        else s.transit.sources } }

section

variable {s : State} {i : Fin 2} {g : FaultInput}

/-- A sample that begins no qualification changes the input alone. -/
theorem State.sampled_silent (h : ¬(g.qualified = true ∧ s.trip.faults[i].qualified = false)) :
    s.sampled i g = s.setFaultInput i { g with lastSample := some s.now } := by
  rw [State.sampled, if_neg h]
  rfl

/-- A sample that leaves its input as it is, is stamped and does nothing else. -/
theorem State.sampled_unchanged (s : State) : s.sampled i s.trip.faults[i] = s.stampSample i :=
  State.sampled_silent fun ⟨begun, not_yet⟩ => absurd begun (Bool.eq_false_iff.1 not_yet)

theorem State.setFaultInput_stamped (s : State) (i : Fin 2) (g : FaultInput) :
    (s.setFaultInput i g).stampSample i = s.setFaultInput i { g with lastSample := some s.now } := by
  simp [State.stampSample, State.setFaultInput, State.now]

/-- The expiry of a filter qualifies the input and sends its source (R174). -/
theorem State.qualify_stamped (unqualified : s.trip.faults[i].qualified = false) :
    (s.qualify i).stampSample i = s.sampled i { s.trip.faults[i] with qualified := true } := by
  rw [State.sampled, if_pos ⟨rfl, unqualified⟩]
  simp [State.qualify, State.sendSource, State.stampSample, State.setFaultInput, State.now]

/-- What a sample does to the part: one case for each branch of the filter (R173, R174). -/
theorem State.judgeSample_stamped (s : State) (i : Fin 2) (asserted : Bool) :
    (s.judgeSample i asserted).stampSample i = s.sampled i (s.trip.faults[i].judged asserted) := by
  unfold State.judgeSample FaultInput.judged
  simp only [Bool.not_eq_true']
  split
  · exact s.sampled_unchanged.symm
  · split
    · rw [State.sampled_silent (by simp), State.setFaultInput_stamped]
    · split
      · exact s.sampled_unchanged.symm
      · rename_i unqualified
        split
        · rw [State.sampled_silent (fun ⟨begun, _⟩ => unqualified begun), State.setFaultInput_stamped]
        · exact State.qualify_stamped (Bool.eq_false_iff.2 unqualified)

end

/-! ### The expiry as an event of its own (R174) -/

theorem FaultInput.expires_iff (f : FaultInput) :
    (f.enabled && !f.qualified && decide (f.qualCount ≤ f.count)) = true ↔
      f.enabled = true ∧ f.qualified = false ∧ f.qualCount ≤ f.count := by
  simp [and_assoc]

section

variable {s : State} {i : Fin 2}

theorem exec_filterExpiry_expires (high : s.rstLow = false) (enabled : s.trip.faults[i].enabled = true)
    (unqualified : s.trip.faults[i].qualified = false) (full : s.trip.faults[i].qualCount ≤ s.trip.faults[i].count) :
    exec (.filterExpiry i) s = .next (s.sampled i { s.trip.faults[i] with qualified := true }) :=
  State.event_of_eq high
    ((if_pos ((FaultInput.expires_iff _).2 ⟨enabled, unqualified, full⟩)).trans (State.qualify_stamped unqualified))

theorem exec_filterExpiry_idle (high : s.rstLow = false) (idle : s.trip.faults[i].enabled = false ∨
      s.trip.faults[i].qualified = true ∨ s.trip.faults[i].count < s.trip.faults[i].qualCount) :
    exec (.filterExpiry i) s = .next s := by
  refine State.event_of_eq high (if_neg fun branch => ?_)
  obtain ⟨enabled, unqualified, full⟩ := (FaultInput.expires_iff _).1 branch
  rcases idle with disabled | qualified | below
  · exact absurd enabled (Bool.eq_false_iff.1 disabled)
  · exact absurd qualified (Bool.eq_false_iff.1 unqualified)
  · exact absurd full (Nat.not_le.2 below)

end

/-- Settles O49: a sample is that of the filter's branches, and the expiry is the last branch alone. -/
theorem faultInputsAreFiltered : Obligations.FaultInputsAreFiltered := by
  constructor
  · rintro s i pinHigh asserted f high rfl level
    rw [← FaultPolarity.asserts_eq level]
    refine ⟨_, FaultInput.judged_disabled, FaultInput.judged_deasserted,
      fun enabled is_asserted => ⟨fun qualified => ?_, fun unqualified below => ?_, fun unqualified full => ?_⟩,
      State.event_of_eq high (s.judgeSample_stamped i _)⟩
    · rw [FaultInput.judged_asserted enabled is_asserted, if_pos qualified]
    · rw [FaultInput.judged_asserted enabled is_asserted, if_neg (Bool.eq_false_iff.1 unqualified), if_pos below]
    · rw [FaultInput.judged_asserted enabled is_asserted, if_neg (Bool.eq_false_iff.1 unqualified),
        if_neg (Nat.not_lt.2 full)]
  · rintro s i f high rfl
    refine ⟨fun ⟨enabled, unqualified, full⟩ => ?_, exec_filterExpiry_idle high⟩
    rw [exec_filterExpiry_expires high enabled unqualified full, State.sampled, if_pos ⟨rfl, unqualified⟩]
    rfl

/-! ### The settings of SET_FAULT (R175) -/

theorem FaultPolarity.ofCode_of_gt {n : Nat} (h : 1 < n) : FaultPolarity.ofCode n = none := by
  match n, h with
  | _ + 2, _ => rfl

theorem faultSetting_of_codes {w : Word} {enabled : Bool} {polarity : FaultPolarity} {code : FaultPolarity → Nat}
    (high : code .assertHigh = 0) (low : code .assertLow = 1)
    (h : w.toNat = bitOf enabled + 256 * code polarity) : faultSetting w = some (enabled, polarity) := by
  have enabled_le := bitOf_le_one enabled
  have enable_byte : lowerByte w = bitOf enabled := by unfold lowerByte; omega
  have polarity_byte : upperByte w = code polarity := by unfold upperByte; omega
  have named : FaultPolarity.ofCode (code polarity) = some polarity := by
    cases polarity
    · rw [high]; rfl
    · rw [low]; rfl
  simp only [faultSetting, enable_byte, polarity_byte, yesNoOfCode_bitOf, named]

theorem faultSetting_out_of_range {w : Word} (h : 1 < lowerByte w ∨ 1 < upperByte w) : faultSetting w = none := by
  unfold faultSetting
  split
  · rename_i enabled polarity
    rcases h with h | h
    · rw [yesNoOfCode_of_gt h] at enabled; cases enabled
    · rw [FaultPolarity.ofCode_of_gt h] at polarity; cases polarity
  · rfl

theorem State.setFault_out_of_range {s : State}
    (range : faultSetting s.port.p0 = none ∨ faultSetting s.port.p1 = none ∨
      yesNoOfCode (lowerByte s.port.p3) = none) :
    s.setFault = (s, .config) := by
  unfold State.setFault
  split
  · rename_i input0 input1 syncLost
    rcases range with h | h | h
    · rw [h] at input0; cases input0
    · rw [h] at input1; cases input1
    · rw [h] at syncLost; cases syncLost
  · rfl

/-- Settles O50: the three registers with codes decide SET_FAULT, and each input is configured apart. -/
theorem setFaultRestartsChangedFilters : Obligations.SetFaultRestartsChangedFilters := by
  refine fun s word => ⟨fun range => State.action_of_owner word (State.setFault_out_of_range ?_),
    fun enabled polarity syncLost code high low p0 p1 p3 => ?_⟩
  · rcases range with h | h | h | h | h
    · exact .inl (faultSetting_out_of_range (.inl h))
    · exact .inl (faultSetting_out_of_range (.inr h))
    · exact .inr (.inl (faultSetting_out_of_range (.inl h)))
    · exact .inr (.inl (faultSetting_out_of_range (.inr h)))
    · exact .inr (.inr (yesNoOfCode_of_gt h))
  · have input0 := faultSetting_of_codes high low p0
    have input1 := faultSetting_of_codes high low p1
    have sync : yesNoOfCode (lowerByte s.port.p3) = some syncLost :=
      (congrArg yesNoOfCode p3).trans (yesNoOfCode_bitOf syncLost)
    refine ⟨![lowerByte s.port.p2, upperByte s.port.p2],
      #v[s.trip.faults[0].configure (enabled 0) (polarity 0) (lowerByte s.port.p2),
        s.trip.faults[1].configure (enabled 1) (polarity 1) (upperByte s.port.p2)], rfl, rfl,
      Fin.forall_fin_two.2 ⟨⟨fun same => if_pos same, fun changed => if_neg changed⟩,
        fun same => if_pos same, fun changed => if_neg changed⟩, State.action_of_owner word ?_⟩
    rw [State.setFault, input0, input1, sync]

end Sys2Proof.Machine

/-! The trip at the host: CLEAR_TRIP and READ_TRIP_RECORD. -/

namespace Sys2Proof.Machine

/-! ### CLEAR_TRIP (R183, R184) -/

theorem State.faultStands_iff (s : State) :
    s.faultStands = true ↔ ∃ i : Fin 2, s.trip.faults[i].enabled = true ∧ s.trip.faults[i].qualified = true := by
  have stands (f : FaultInput) : (f.enabled && f.qualified) = true ↔ f.enabled = true ∧ f.qualified = true :=
    Bool.and_eq_true_iff
  rw [State.faultStands, List.any_eq_true]
  constructor
  · rintro ⟨f, mem, standing⟩
    obtain ⟨i, lt, rfl⟩ := Vector.getElem_of_mem (Vector.mem_toList_iff.1 mem)
    exact ⟨⟨i, lt⟩, (stands _).1 standing⟩
  · rintro ⟨i, standing⟩
    exact ⟨_, Vector.mem_toList_iff.2 (Vector.getElem_mem i.isLt), (stands _).2 standing⟩

theorem State.clearTrip_armed {s : State} (armed : s.trip.state = .armed) : s.clearTrip = (s, .state) :=
  if_pos (by rw [State.tripped, armed]; rfl)

/-- While TRIPPED the standing of a condition decides. -/
theorem State.clearTrip_tripped {s : State} (tripped : s.trip.state = .tripped) :
    s.clearTrip = if s.faultStands then (s, .faultActive)
      else ({ s with trip := { s.trip with state := .armed, records := [] },
                     transit := { s.transit with clearTimebase := true, clearLines := true } }, .ok) :=
  if_neg (by rw [State.tripped, tripped]; decide)

/-! ### READ_TRIP_RECORD (R186, R201) -/

theorem State.readTripRecord_beyond {s : State} (beyond : s.trip.records.length ≤ s.port.p0.toNat) :
    s.readTripRecord = (s, .notFound) := by
  rw [State.readTripRecord, List.getElem?_eq_none beyond]

theorem State.readTripRecord_found {s : State} {before after : List TripRecord} {r : TripRecord}
    (records : s.trip.records = before ++ r :: after) (index : s.port.p0.toNat = before.length) :
    s.readTripRecord = (s.withParams (r.word0 s.trip.records.length) r.word1 r.word2 0#16, .ok) := by
  have found : s.trip.records[s.port.p0.toNat]? = some r := by
    rw [records, index, List.getElem?_append_right (Nat.le_refl _), Nat.sub_self]
    rfl
  rw [State.readTripRecord, found]
  rfl

/-- Settles O52: CLEAR_TRIP by the trip state and then by the conditions, and the record at its place in the list. -/
theorem tripIsClearedAndRead : Obligations.TripIsClearedAndRead := by
  refine ⟨fun s word => ⟨fun armed => State.action_of_owner word (State.clearTrip_armed armed), fun tripped =>
      ⟨fun standing => ?_, fun clear => ?_⟩⟩,
    fun s word => ⟨fun beyond => State.action_of_owner word (State.readTripRecord_beyond beyond),
      fun before after r records index => State.action_of_owner word (State.readTripRecord_found records index)⟩⟩
  · exact State.action_of_owner word
      ((State.clearTrip_tripped tripped).trans (if_pos (s.faultStands_iff.2 standing)))
  · refine State.action_of_owner word ((State.clearTrip_tripped tripped).trans (if_neg fun standing => ?_))
    obtain ⟨i, enabled, qualified⟩ := s.faultStands_iff.1 standing
    exact absurd qualified (Bool.eq_false_iff.1 (clear i enabled))

end Sys2Proof.Machine

/-! The register window: the map of write words to commands, the write words that spell none, and the transaction. -/

namespace Sys2Proof.Machine

/-! ### The register map (R194, R196) -/

/-- The address of a command follows from any word that spells it. -/
theorem address_of_commandAt {c : Instr} {a : Address} {w : Word} (h : commandAt a w = some c) :
    c.address = some a := by
  unfold commandAt at h
  split at h
  case h_33 => cases h
  all_goals
    rename_i number
    cases h
    exact congrArg some (BitVec.eq_of_toNat_eq number.symm)

/-- The addresses whose write words spell commands: IFLAG, IENABLE and the action registers. -/
theorem commandAt_isSome_iff (a : Address) (w : Word) :
    (commandAt a w).isSome = true ↔ a = 0x03#7 ∨ a = 0x04#7 ∨ (0x20#7 ≤ a ∧ a ≤ 0x3D#7) := by
  rw [← BitVec.toNat_inj, ← BitVec.toNat_inj, BitVec.le_def, BitVec.le_def]
  unfold commandAt
  split
  case h_33 =>
    simp only [imp_false, Option.isSome_none, Bool.false_eq_true, false_iff, BitVec.toNat_ofNat] at *
    omega
  all_goals simp only [Option.isSome_some, true_iff, BitVec.toNat_ofNat]; omega

/-- Every command with an address is spelled by a word there: its own word at IFLAG and IENABLE, any word at an action
register. -/
theorem commandAt_of_address (c : Instr) : Laws.Address.Statement c := by
  cases c with
  | iflagWrite word => exact Laws.Address.iflagWrite word
  | ienableWrite word => exact Laws.Address.ienableWrite word
  | _ => intro a h; cases h <;> exact ⟨0#16, rfl⟩

/-- Settles O10: the command at an address and the address of a command are inverse to each other. -/
theorem actionAddressesRoundTrip : Obligations.ActionAddressesRoundTrip :=
  ⟨commandAt_of_address, fun _ _ _ => address_of_commandAt, commandAt_isSome_iff⟩

/-! ### Words without a row of their own (R192, R193, R198) -/

/-- The current address goes on by one and wraps behind 7Fh (R192). -/
theorem address_succ_eq (a : Address) : a + 1#7 = if a = 0x7F#7 then 0x00#7 else a + 1#7 := by
  split
  · next last => rw [last]; rfl
  · rfl

/-- Of P0 to P3 the word sets the one at its address, and none at any other (R193, R198). -/
theorem State.writeRegister_eq (s : State) (a : Address) (word : Word) :
    s.writeRegister a word = { s with port := { s.port with
      p0 := if a = 0x05#7 then word else s.port.p0,
      p1 := if a = 0x06#7 then word else s.port.p1,
      p2 := if a = 0x07#7 then word else s.port.p2,
      p3 := if a = 0x08#7 then word else s.port.p3 } } := by
  have at_number {k : Address} (number : a.toNat = k.toNat) : a = k := BitVec.eq_of_toNat_eq number
  unfold State.writeRegister
  split
  case h_1 number => cases at_number (k := 0x05#7) number; rfl
  case h_2 number => cases at_number (k := 0x06#7) number; rfl
  case h_3 number => cases at_number (k := 0x07#7) number; rfl
  case h_4 number => cases at_number (k := 0x08#7) number; rfl
  case h_5 p0 p1 p2 p3 =>
    have elsewhere (k : Address) (other : a.toNat ≠ k.toNat) : a ≠ k := fun same => other (congrArg _ same)
    rw [if_neg (elsewhere 0x05#7 p0), if_neg (elsewhere 0x06#7 p1), if_neg (elsewhere 0x07#7 p2),
      if_neg (elsewhere 0x08#7 p3)]

theorem exec_registerWrite_writing {s : State} {a : Address} {word : Word} (at_word : s.atWord a)
    (no_command : ¬(commandAt a word).isSome = true) :
    exec (.registerWrite word) s = .next ((s.writeRegister a word).afterWord a) := by
  have arm : exec (.registerWrite word) s = execRegisterWrite word s := rfl
  rw [arm, execRegisterWrite, at_word.2]
  exact (if_neg no_command).trans (State.writeWord_next at_word _)

/-- Settles O6: a word that spells no command reaches P0 to P3, and IFLAG and IENABLE change bit by bit. -/
theorem writeWordsReachTheirRegisters : Obligations.WriteWordsReachTheirRegisters := by
  refine ⟨fun s a w at_word iflag ienable action => ?_, fun s w at_word => ?_, fun s w at_word => ?_⟩
  · have no_command : ¬(commandAt a w).isSome = true := by
      rw [commandAt_isSome_iff]
      rintro (at_iflag | at_ienable | at_action)
      exacts [iflag at_iflag, ienable at_ienable, action at_action]
    rw [exec_registerWrite_writing at_word no_command, s.writeRegister_eq, ← address_succ_eq a]
    rfl
  · refine ⟨s.interrupts.flags &&& ~~~(w.setWidth 13), fun k => ?_, State.writeWord_next at_word _⟩
    by_cases inside : k < 13
    · simp [inside]
    · simp [BitVec.getLsbD_of_ge s.interrupts.flags k (by omega)]
  · exact ⟨w.setWidth 13, fun k inside => by simp [inside], State.writeWord_next at_word _⟩

/-! ### The transaction (R190 to R193) -/

theorem State.startReadWord_record (s : State) :
    s.startReadWord 0x10#7 = { s with port := { s.port with phase := .recordDue } } := rfl

theorem State.startReadWord_register (s : State) {a : Address} (h : a ≠ 0x10#7) :
    s.startReadWord a = { s with port := { s.port with phase := .reading a, readWord := s.readRegister a } } :=
  if_neg h

/-- The starting address is the command byte's lower seven bits (R190). -/
theorem setWidth_eq_of_bits {a : Address} {byte : Byte} (bits : ∀ k : Nat, k < 7 → a.getLsbD k = byte.getLsbD k) :
    byte.setWidth 7 = a := by
  refine BitVec.eq_of_getLsbD_eq fun k inside => ?_
  rw [bits k inside, BitVec.getLsbD_setWidth, decide_eq_true inside, Bool.true_and]

theorem exec_commandByte {s : State} {byte : Byte} {a : Address} (high : s.rstLow = false)
    (command : s.port.phase = .command) (start : byte.setWidth 7 = a) :
    exec (.commandByte byte) s = .next (if byte.getLsbD 7 then s.startReadWord a
      else { s with port := { s.port with phase := .writing a, readWord := 0#16 } }) := by
  subst start
  exact (State.event_next high _).trans (congrArg _ (if_pos command))

theorem exec_registerWrite_reading {s : State} {a : Address} (high : s.rstLow = false)
    (reading : s.port.phase = .reading a) (word : Word) :
    exec (.registerWrite word) s = .next (s.startReadWord (a + 1#7)) := by
  have arm : exec (.registerWrite word) s = execRegisterWrite word s := rfl
  rw [arm, execRegisterWrite, reading]
  exact State.event_next high _

/-- Settles O4: each edge and byte by the port's phase, and each read word by the address at which it starts. -/
theorem transactionRunsBetweenEdgesOfCs : Obligations.TransactionRunsBetweenEdgesOfCs := by
  refine ⟨fun s high idle => ?fall, fun s byte a high command bits => ?byte,
    fun s a b w high reading next_word => ?word, fun s => rfl⟩
  case fall =>
    exact congrArg Host.Outcome.next ((if_pos idle).trans (if_neg (by rw [high]; decide)))
  case byte =>
    rw [exec_commandByte high command (setWidth_eq_of_bits bits)]
    refine ⟨fun write => ?_, fun read register => ?_, fun read record => ?_⟩
    · rw [if_neg (by rw [write]; decide)]
    · rw [if_pos read, s.startReadWord_register register]
    · rw [if_pos read, record, s.startReadWord_record]
  case word =>
    rw [exec_registerWrite_reading high reading, address_succ_eq a, ← next_word]
    refine ⟨fun register => ?_, fun record => ?_⟩
    · rw [s.startReadWord_register register]
    · rw [record, s.startReadWord_record]

end Sys2Proof.Machine

/-! The packed layouts: the edge entry in P0 and P1, the result view and the trip record. -/

namespace Sys2Proof.Machine

/-! ### The codes of an entry's fields (R199) -/

theorem EdgeAction.code_lt (a : EdgeAction) : a.code < 3 := by cases a <;> decide

theorem Cadence.code_lt (c : Cadence) : c.code < 3 := by cases c <;> decide

theorem EdgeAction.ofCode_eq_some_iff {n : Nat} {a : EdgeAction} : EdgeAction.ofCode n = some a ↔ n = a.code := by
  constructor
  · intro h
    unfold EdgeAction.ofCode at h
    split at h <;> cases h <;> rfl
  · rintro rfl
    cases a <;> rfl

theorem Cadence.ofCode_eq_some_iff {n : Nat} {c : Cadence} : Cadence.ofCode n = some c ↔ n = c.code := by
  constructor
  · intro h
    unfold Cadence.ofCode at h
    split at h <;> cases h <;> rfl
  · rintro rfl
    cases c <;> rfl

theorem EdgeAction.ofCode_eq_none_iff {n : Nat} : EdgeAction.ofCode n = none ↔ 3 ≤ n := by
  unfold EdgeAction.ofCode
  split <;> simp only [reduceCtorEq, false_iff, true_iff, imp_false] at * <;> omega

theorem Cadence.ofCode_eq_none_iff {n : Nat} : Cadence.ofCode n = none ↔ 3 ≤ n := by
  unfold Cadence.ofCode
  split <;> simp only [reduceCtorEq, false_iff, true_iff, imp_false] at * <;> omega

/-! ### P1 of an entry as a sum of its fields (R199) -/

/-- The slot bits of a tag: 0 when it is absent. -/
def slotCode : Option (Fin 8) → Nat
  | some slot => slot.val
  | none => 0

theorem slotCode_lt (tag : Option (Fin 8)) : slotCode tag < 8 := by
  cases tag with
  | none => decide
  | some slot => exact slot.isLt

theorem Entry.word1_eq (e : Entry) : e.word1 = BitVec.ofNat 16 (e.line.val + 16 * e.action.code + 64 * e.cadence.code
    + 256 * slotCode e.tag + 2048 * bitOf e.tag.isSome) := by
  unfold Entry.word1
  congr 1
  cases e.tag with
  | none => rfl
  | some slot => simp only [slotCode, bitOf, Option.isSome_some, if_true]; omega

/-- The fields of P1, each in its bits. -/
theorem Entry.word1_fields (e : Entry) :
    (e.word1.extractLsb' 0 4).toNat = e.line.val ∧ (e.word1.extractLsb' 4 2).toNat = e.action.code ∧
      (e.word1.extractLsb' 6 2).toNat = e.cadence.code ∧ (e.word1.extractLsb' 8 3).toNat = slotCode e.tag ∧
      e.word1.getLsbD 11 = e.tag.isSome ∧ e.word1.extractLsb' 12 4 = 0#4 := by
  have line := e.line.isLt
  have action := e.action.code_lt
  have cadence := e.cadence.code_lt
  have slot := slotCode_lt e.tag
  have present := bitOf_le_one e.tag.isSome
  simp only [e.word1_eq, ← BitVec.toNat_inj, getLsbD_ofNat_eq_iff, extractLsb'_ofNat_toNat, BitVec.toNat_ofNat]
  omega

theorem Entry.word0_toNat {e : Entry} (h : e.offset < 65536) : e.word0.toNat = e.offset := by
  rw [Entry.word0, BitVec.toNat_ofNat]; omega

/-! ### The entry that P0 and P1 name (R24, R199) -/

theorem tagOf_eq_none_iff {p1 : Word} : tagOf p1 = none ↔ p1.getLsbD 11 = false := by
  unfold tagOf
  split <;> simp_all

/-- A tag and the bits that spell it. -/
theorem tagOf_eq_of_bits {p1 : Word} {tag : Option (Fin 8)} (present : p1.getLsbD 11 = tag.isSome)
    (slot : (p1.extractLsb' 8 3).toNat = slotCode tag) : tagOf p1 = tag := by
  unfold tagOf
  cases tag with
  | none => rw [present]; rfl
  | some n => rw [present]; exact congrArg some (Fin.ext slot)

/-- An entry is read from P0 and P1 exactly when each of its fields stands in its bits, and a MARK has its tag. -/
theorem entryOf_eq_some_iff {p0 p1 : Word} {e : Entry} : entryOf p0 p1 = some e ↔
    p0.toNat = e.offset ∧ (p1.extractLsb' 0 4).toNat = e.line.val ∧ (p1.extractLsb' 4 2).toNat = e.action.code ∧
      (p1.extractLsb' 6 2).toNat = e.cadence.code ∧ tagOf p1 = e.tag ∧ (e.action = .mark → e.tag ≠ none) := by
  obtain ⟨offset, line, action, cadence, tag⟩ := e
  rw [eq_comm (b := line.val), ← eq_lineOf_iff, ← EdgeAction.ofCode_eq_some_iff, ← Cadence.ofCode_eq_some_iff]
  unfold entryOf lineOf
  generalize EdgeAction.ofCode (p1.extractLsb' 4 2).toNat = a, Cadence.ofCode (p1.extractLsb' 6 2).toNat = c
  cases a with
  | none => simp
  | some a =>
    cases c with
    | none => simp
    | some c =>
      simp only [Option.ite_none_left_eq_some, Option.some.injEq, Entry.mk.injEq]
      grind

/-- No entry is read exactly when a code names no action or no cadence, or a MARK has no tag: R24's CONFIG. -/
theorem entryOf_eq_none_iff {p0 p1 : Word} : entryOf p0 p1 = none ↔
    3 ≤ (p1.extractLsb' 4 2).toNat ∨ 3 ≤ (p1.extractLsb' 6 2).toNat ∨
      ((p1.extractLsb' 4 2).toNat = EdgeAction.mark.code ∧ tagOf p1 = none) := by
  rw [← EdgeAction.ofCode_eq_none_iff, ← Cadence.ofCode_eq_none_iff, ← EdgeAction.ofCode_eq_some_iff]
  unfold entryOf
  generalize EdgeAction.ofCode (p1.extractLsb' 4 2).toNat = action, Cadence.ofCode (p1.extractLsb' 6 2).toNat = cadence
  cases action with
  | none => simp
  | some action =>
    cases cadence with
    | none => simp
    | some cadence => simp

/-- What a read-back writes is read as the entry (R11, R199). -/
theorem entryOf_words {e : Entry} (offset : e.offset < 65536) (tagged : e.action = .mark → e.tag ≠ none) :
    entryOf e.word0 e.word1 = some e := by
  obtain ⟨line, action, cadence, slot, present, -⟩ := e.word1_fields
  exact entryOf_eq_some_iff.2
    ⟨Entry.word0_toNat offset, line, action, cadence, tagOf_eq_of_bits present slot, tagged⟩

/-- P1 of an entry that was read from P1: the examined bits, the slot bits among them only with a tag. -/
theorem Entry.word1_of_read {p0 p1 : Word} {e : Entry} (read : entryOf p0 p1 = some e) :
    e.word1 = BitVec.ofNat 16 (p1.toNat % 2 ^ (if p1.getLsbD 11 then 12 else 8)) := by
  obtain ⟨-, line, action, cadence, tag, -⟩ := entryOf_eq_some_iff.1 read
  rw [e.word1_eq, ← line, ← action, ← cadence, ← tag]
  congr 1
  have bit : p1.getLsbD 11 = decide (p1.toNat / 2 ^ 11 % 2 = 1) := Nat.testBit_eq_decide_div_mod_eq
  unfold tagOf
  simp only [BitVec.extractLsb'_toNat, Nat.shiftRight_eq_div_pow]
  split
  · next present =>
    have present : p1.toNat / 2 ^ 11 % 2 = 1 := of_decide_eq_true (bit.symm.trans present)
    have slot : slotCode (some (p1.extractLsb' 8 3).toFin) = p1.toNat / 2 ^ 8 % 2 ^ 3 := by
      rw [← Nat.shiftRight_eq_div_pow]; rfl
    rw [slot]
    simp only [bitOf, Option.isSome_some, if_true]
    omega
  · simp only [slotCode, bitOf, Option.isSome_none, Bool.false_eq_true, if_false]
    omega

/-- Settles O11: the fields of P1 are those of its sum, and an entry is read when each field stands in its bits. -/
theorem entryLayoutRoundTrip : Obligations.EntryLayoutRoundTrip := by
  refine ⟨fun e offset => ?fields, fun e offset tagged => entryOf_words offset tagged, fun p0 p1 e read => ?again,
    fun p0 p1 => ?config⟩
  case fields =>
    obtain ⟨line, action, cadence, slot, present, unused⟩ := e.word1_fields
    refine ⟨Entry.word0_toNat offset, line, action.trans ?_, cadence.trans ?_, slot.trans ?_, present, unused⟩
    · cases e.action <;> rfl
    · cases e.cadence <;> rfl
    · cases e.tag <;> rfl
  case again =>
    obtain ⟨offset, -⟩ := entryOf_eq_some_iff.1 read
    refine ⟨by rw [Entry.word0, ← offset, BitVec.ofNat_toNat, BitVec.setWidth_eq], fun k => ?_⟩
    rw [Entry.word1_of_read read, BitVec.getLsbD_ofNat, Nat.testBit_mod_two_pow]
    show _ = (decide (k < 12) && p1.toNat.testBit k && _)
    cases present : p1.getLsbD 11 with
    | true =>
      by_cases inside : k < 12
      · simp [inside, show k < 16 by omega]
      · simp [inside]
    | false =>
      have slot_bits : k < 8 ∨ (8 ≤ k ∧ k ≤ 10) ∨ k = 11 ∨ 12 ≤ k := by omega
      rcases slot_bits with below | ⟨from8, to10⟩ | rfl | above
      · simp [below, show k < 16 by omega, show k < 12 by omega, show ¬8 ≤ k by omega]
      · simp [from8, to10]
      · simp [show p1.toNat.testBit 11 = false from present]
      · simp [show ¬k < 8 by omega, show ¬k < 12 by omega]
  case config =>
    rw [entryOf_eq_none_iff, tagOf_eq_none_iff]
    have action := (p1.extractLsb' 4 2).isLt
    have cadence := (p1.extractLsb' 6 2).isLt
    have mark : EdgeAction.mark.code = 2 := rfl
    rw [← BitVec.toNat_inj, ← BitVec.toNat_inj, ← BitVec.toNat_inj, mark]
    refine or_congr ?_ (or_congr ?_ Iff.rfl) <;> rw [BitVec.toNat_ofNat] <;> omega

/-! ### The result view (R200) -/

theorem LimitMark.code_lt (m : LimitMark) : m.code < 3 := by cases m <;> decide

/-- The fields of the word at 10h; its window code holds channel and mark together. -/
theorem viewWord0_fields (r : Result) (wait : r.wait ≤ 1023) :
    ((viewWord0 (some r)).extractLsb' 0 10).toNat = r.wait ∧ (viewWord0 (some r)).getLsbD 10 = r.gap ∧
      ((viewWord0 (some r)).extractLsb' 11 5).toNat = 1 + 3 * r.channel.val + r.mark.code := by
  have gap := bitOf_le_one r.gap
  have channel := r.channel.isLt
  have mark := r.mark.code_lt
  simp only [viewWord0, getLsbD_ofNat_eq_iff, extractLsb'_ofNat_toNat]
  omega

theorem viewWord3_eq (r : Result) :
    viewWord3 (some r) = BitVec.ofNat 16 (r.value + 4096 * r.slot.val + 32768 * bitOf (r.origin = .software)) := by
  simp only [viewWord3, bitOf, decide_eq_true_eq]

theorem viewWord3_fields (r : Result) (value : r.value ≤ 4095) :
    ((viewWord3 (some r)).extractLsb' 0 12).toNat = r.value ∧
      ((viewWord3 (some r)).extractLsb' 12 3).toNat = r.slot.val ∧
      (viewWord3 (some r)).getLsbD 15 = decide (r.origin = .software) := by
  have slot := r.slot.isLt
  have source := bitOf_le_one (r.origin = .software)
  simp only [viewWord3_eq, getLsbD_ofNat_eq_iff, extractLsb'_ofNat_toNat]
  omega

theorem viewWords_edge {r : Result} {frame : Word} {tick : Nat} (origin : r.origin = .edge frame tick) :
    viewWord1 (some r) = frame ∧ viewWord2 (some r) = BitVec.ofNat 16 tick := by
  obtain ⟨slot, channel, _, value, wait, mark, gap⟩ := r
  cases origin
  exact ⟨rfl, rfl⟩

theorem viewWords_software {r : Result} (origin : r.origin = .software) :
    viewWord1 (some r) = 0#16 ∧ viewWord2 (some r) = 0#16 := by
  obtain ⟨slot, channel, _, value, wait, mark, gap⟩ := r
  cases origin
  exact ⟨rfl, rfl⟩

/-! ### The trip record (R201) -/

theorem sourceCode_lt (source : TripSource) : sourceCode source < 8 := by cases source <;> simp [sourceCode]

/-- The detail of a source, 0 where it has none, fits its three bits. -/
theorem sourceDetail_getD_lt (source : TripSource) : (sourceDetail source).getD 0 < 8 := by
  cases source with
  | limit slot => exact slot.isLt
  | interlock group => exact group.isLt.trans (by decide)
  | fault0 | fault1 | syncLost | software => decide

theorem TripRecord.word0_eq (r : TripRecord) (count : Nat) :
    r.word0 count = BitVec.ofNat 16 (sourceCode r.source + 8 * bitOf (sourceDetail r.source).isSome
      + 16 * (sourceDetail r.source).getD 0 + 128 * bitOf r.stamp.isSome + 256 * count) := by
  unfold TripRecord.word0
  congr 1
  cases sourceDetail r.source with
  | none => rfl
  | some d => simp only [bitOf, Option.isSome_some, if_true, Option.getD_some]; omega

theorem TripRecord.word0_fields (r : TripRecord) {count : Nat} (h : count ≤ 4) :
    ((r.word0 count).extractLsb' 0 3).toNat = sourceCode r.source ∧
      (r.word0 count).getLsbD 3 = (sourceDetail r.source).isSome ∧
      ((r.word0 count).extractLsb' 4 3).toNat = (sourceDetail r.source).getD 0 ∧
      (r.word0 count).getLsbD 7 = r.stamp.isSome ∧ ((r.word0 count).extractLsb' 8 8).toNat = count := by
  have code := sourceCode_lt r.source
  have present := bitOf_le_one (sourceDetail r.source).isSome
  have detail := sourceDetail_getD_lt r.source
  have stamp := bitOf_le_one r.stamp.isSome
  simp only [r.word0_eq, getLsbD_ofNat_eq_iff, extractLsb'_ofNat_toNat]
  omega

theorem TripRecord.words_stamped {r : TripRecord} {frame : Word} {tick : Nat} (stamp : r.stamp = some (frame, tick)) :
    r.word1 = frame ∧ r.word2 = BitVec.ofNat 16 tick := by
  rw [TripRecord.word1, TripRecord.word2, stamp]; exact ⟨rfl, rfl⟩

theorem TripRecord.words_unstamped {r : TripRecord} (stamp : r.stamp = none) : r.word1 = 0#16 ∧ r.word2 = 0#16 := by
  rw [TripRecord.word1, TripRecord.word2, stamp]; exact ⟨rfl, rfl⟩

/-- Settles O12: each word of a record is a sum whose parts stand in the bits of their fields. -/
theorem recordLayouts : Obligations.RecordLayouts := by
  refine ⟨fun r wait value => ?view, fun r count most => ?tripRecord⟩
  case view =>
    obtain ⟨at_wait, at_gap, window⟩ := viewWord0_fields r wait
    obtain ⟨at_value, at_slot, source⟩ := viewWord3_fields r value
    have mark := r.mark.code_lt
    refine ⟨at_wait, at_gap, by omega, ?_, by omega, at_value, at_slot, source ▸ decide_eq_true_iff,
      fun _ _ => viewWords_edge, viewWords_software⟩
    have low : (((viewWord0 (some r)).extractLsb' 11 5).toNat - 1) % 3 = r.mark.code := by omega
    refine low.trans ?_
    cases r.mark <;> rfl
  case tripRecord =>
    obtain ⟨source, present, detail, stamp, records⟩ := r.word0_fields most
    refine ⟨source.trans ?_, present.trans ?_, detail.trans ?_, stamp, records,
      fun _ _ => TripRecord.words_stamped, TripRecord.words_unstamped⟩ <;> cases r.source <;> rfl

end Sys2Proof.Machine

/-! What every command leaves outside the part's blocks: the queue of waiting commands and RST#; and that a command that
is a write word happens at its address. -/

namespace Sys2Proof.Machine

/-! ### What no block of the part reaches -/

/-- The level of the RST# pin and the queue of waiting commands, which are set from outside the part (log entry 1). -/
def State.aside (s : State) : Bool × List Instr := (s.rstLow, s.pending)

theorem TickFrame.aside {s t : State} (h : TickFrame s t) : t.aside = s.aside := by
  unfold State.aside; rw [h.rstLow, h.pending]

/-- The outcome is a next state, with RST# and the queue as they were. -/
def State.Completes (s : State) (o : Host.Outcome State Fault Refusal) : Prop :=
  ∃ t, o = .next t ∧ t.aside = s.aside

theorem State.event_completes_aside {s t : State} (h : t.aside = s.aside) : s.Completes (s.event t) := by
  refine ⟨_, rfl, ?_⟩
  split
  exacts [rfl, h]

theorem State.writeWord_completes_aside {s t : State} {a : Address} (h : t.aside = s.aside) :
    s.Completes (s.writeWord a t) := by
  refine ⟨_, rfl, ?_⟩
  split
  exacts [h, rfl]

theorem State.action_completes_aside {s : State} {a : Address} {owner : State → State × ResultCode}
    (h : (owner s).1.aside = s.aside) : s.Completes (s.action a owner) := State.writeWord_completes_aside h

section

variable (s : State)

/-! ### The plan store -/

theorem State.insertEdge_aside : s.insertEdge.1.aside = s.aside := by
  unfold State.insertEdge
  simp only
  repeat' split
  all_goals rfl

theorem State.removeEdge_aside : s.removeEdge.1.aside = s.aside := by
  unfold State.removeEdge
  simp only
  repeat' split
  all_goals rfl

theorem State.clearStage_aside : s.clearStage.1.aside = s.aside := by
  unfold State.clearStage
  simp only
  repeat' split
  all_goals rfl

theorem State.setFrameLength_aside : s.setFrameLength.1.aside = s.aside := by
  unfold State.setFrameLength
  simp only
  repeat' split
  all_goals rfl

theorem State.copyActive_aside : s.copyActive.1.aside = s.aside := by
  unfold State.copyActive
  repeat' split
  all_goals rfl

theorem State.completeCopy_aside : s.completeCopy.aside = s.aside := by
  unfold State.completeCopy
  repeat' split
  all_goals rfl

theorem State.readEntry_aside (p : Plan) (p3 : Word) : (s.readEntry p p3).1.aside = s.aside := by
  unfold State.readEntry
  repeat' split
  all_goals rfl

theorem State.readStageEntry_aside : s.readStageEntry.1.aside = s.aside := by
  unfold State.readStageEntry
  split
  · rfl
  · exact s.readEntry_aside _ _

theorem State.commit_aside : s.commit.1.aside = s.aside := by
  unfold State.commit
  repeat' split
  all_goals rfl

theorem State.completeValidation_aside : s.completeValidation.aside = s.aside := by
  unfold State.completeValidation State.validationPasses
  repeat' split
  all_goals rfl

theorem State.withdraw_aside : s.withdraw.1.aside = s.aside := by
  unfold State.withdraw
  repeat' split
  all_goals rfl

theorem State.cancelCommit_aside (cause : CancelCause) : (s.cancelCommit cause).aside = s.aside := by
  unfold State.cancelCommit
  repeat' split
  all_goals rfl

theorem State.planStoreTakesNotice_aside : s.planStoreTakesNotice.aside = s.aside := by
  unfold State.planStoreTakesNotice
  split
  · rfl
  · exact State.cancelCommit_aside _ _

/-! ### The timebase and the line block -/

theorem State.setTimebase_aside : s.setTimebase.1.aside = s.aside := by
  unfold State.setTimebase State.applyTimebase
  repeat' split
  all_goals rfl

theorem State.startTimebase_aside : s.startTimebase.1.aside = s.aside := by
  unfold State.startTimebase
  repeat' split
  all_goals rfl

theorem State.stopTimebase_aside : s.stopTimebase.1.aside = s.aside := by
  unfold State.stopTimebase
  split
  case h_2 => exact s.becomeStopped_tickFrame.aside
  case h_3 => exact s.becomeStopped_tickFrame.aside
  all_goals rfl

theorem State.timebaseTakesClear_aside : s.timebaseTakesClear.aside = s.aside := by
  unfold State.timebaseTakesClear
  repeat' split
  all_goals rfl

theorem State.applyGroup_aside (g : Fin 6) (policy : Policy) (proposed : List (Fin 16)) (gap limit : Nat) :
    (s.applyGroup g policy proposed gap limit).aside = s.aside := by
  unfold State.applyGroup State.aside
  rfl

theorem State.setGroup_aside : s.setGroup.1.aside = s.aside := by
  unfold State.setGroup
  simp only
  split
  · rfl
  · split
    · rfl
    · split
      · split
        · rfl
        · split
          · rfl
          · split
            · rfl
            · exact s.applyGroup_aside _ _ _ _ _
      · rfl

theorem State.readLine_aside : s.readLine.1.aside = s.aside := by
  unfold State.readLine
  repeat' split
  all_goals rfl

theorem State.readGroup_aside : s.readGroup.1.aside = s.aside := by
  unfold State.readGroup
  simp only
  repeat' split
  all_goals rfl

theorem State.expireOne_aside (g : Fin 6) : (s.expireOne g).aside = s.aside :=
  (s.expireOne_moves g).frame.tickFrame.aside

theorem State.lineBlockTakesClear_aside : s.lineBlockTakesClear.aside = s.aside := by
  unfold State.lineBlockTakesClear
  repeat' split
  all_goals rfl

/-! ### The sampling path -/

theorem State.setSlot_aside : s.setSlot.1.aside = s.aside := by
  unfold State.setSlot
  repeat' split
  all_goals rfl

theorem State.readSlot_aside : s.readSlot.1.aside = s.aside := by
  unfold State.readSlot
  repeat' split
  all_goals rfl

theorem State.serveQueue_aside : s.serveQueue.aside = s.aside := by
  unfold State.serveQueue
  repeat' split
  all_goals rfl

theorem State.placeRequest_aside (slot : Fin 8) (origin : Origin) : (s.placeRequest slot origin).aside = s.aside := by
  unfold State.placeRequest
  simp only
  split
  · exact State.serveQueue_aside _
  · rfl

theorem State.takeTag_aside (tag : SampleTag) : (s.takeTag tag).aside = s.aside := by
  unfold State.takeTag
  split
  · rfl
  · exact s.placeRequest_aside _ _

theorem State.samplerTakesTag_aside : s.samplerTakesTag.aside = s.aside := by
  unfold State.samplerTakesTag
  split
  · rfl
  · exact State.takeTag_aside _ _

theorem State.takeTagsOf_aside (step : Nat) : (s.takeTagsOf step).aside = s.aside :=
  List.foldlRecOn (motive := fun t : State => t.aside = s.aside) _ _ rfl
    fun t kept tag _ => (t.takeTag_aside tag).trans kept

theorem State.samplingTakesNotice_aside : s.samplingTakesNotice.aside = s.aside := by
  unfold State.samplingTakesNotice
  split
  · rfl
  · simp only
    split
    · rfl
    · exact s.takeTagsOf_aside _

theorem State.sampleNow_aside : s.sampleNow.1.aside = s.aside := by
  unfold State.sampleNow
  split
  · rfl
  · split
    · rfl
    · exact s.placeRequest_aside _ _

/-- The append is that of a record to the ring, and then the queue is served or the calibration begins. -/
theorem State.completeConversion_aside : s.completeConversion.aside = s.aside := by
  unfold State.completeConversion
  split
  · rw [State.append_eq]; exact State.serveQueue_aside _
  · rw [State.append_eq]; rfl
  all_goals rfl

theorem State.completeTrial_aside : s.completeTrial.aside = s.aside := by
  unfold State.completeTrial
  split
  · split
    · exact State.serveQueue_aside _
    · rfl
  all_goals rfl

theorem State.setConverter_aside : s.setConverter.1.aside = s.aside := by
  unfold State.setConverter
  repeat' split
  all_goals rfl

theorem State.calibrate_aside : s.calibrate.1.aside = s.aside := by
  unfold State.calibrate
  repeat' split
  all_goals rfl

theorem State.cancelCal_aside : s.cancelCal.1.aside = s.aside := by
  unfold State.cancelCal
  split
  · exact State.serveQueue_aside _
  all_goals rfl

theorem State.setRing_aside : s.setRing.1.aside = s.aside := by
  unfold State.setRing
  simp only [State.setFlagIf_eq]
  repeat' split
  all_goals rfl

/-! ### The trip controller and SOFT_RESET -/

theorem State.judgeSample_aside (i : Fin 2) (asserted : Bool) : (s.judgeSample i asserted).aside = s.aside := by
  unfold State.judgeSample
  simp only
  repeat' split
  all_goals rfl

theorem State.setFault_aside : s.setFault.1.aside = s.aside := by
  unfold State.setFault
  repeat' split
  all_goals rfl

theorem State.takeSource_aside (sent : SentSource) : (s.takeSource sent).aside = s.aside := by
  unfold State.takeSource State.recordSecondary
  repeat' split
  all_goals rfl

theorem State.controllerTakes_aside (source : TripSource) : (s.controllerTakes source).aside = s.aside := by
  unfold State.controllerTakes
  split
  · rfl
  · exact State.takeSource_aside _ _

theorem State.clearTrip_aside : s.clearTrip.1.aside = s.aside := by
  unfold State.clearTrip
  repeat' split
  all_goals rfl

theorem State.readTripRecord_aside : s.readTripRecord.1.aside = s.aside := by
  unfold State.readTripRecord
  repeat' split
  all_goals rfl

theorem State.softReset_aside : s.softReset.aside = s.aside := by rw [s.softReset_eq]; rfl

/-! ### The host port -/

theorem State.startReadWord_aside (a : Address) : (s.startReadWord a).aside = s.aside := by
  unfold State.startReadWord
  repeat' split
  all_goals rfl

theorem State.writeRegister_aside (a : Address) (word : Word) : (s.writeRegister a word).aside = s.aside := by
  unfold State.writeRegister
  repeat' split
  all_goals rfl

theorem State.readHead_aside : s.readHead.aside = s.aside := by
  unfold State.readHead
  repeat' split
  all_goals rfl

theorem execCsFall_completes : s.Completes (execCsFall s) := by
  refine ⟨_, rfl, ?_⟩
  repeat' split
  all_goals rfl

theorem execCommandByte_completes (byte : Byte) : s.Completes (execCommandByte byte s) := by
  refine State.event_completes_aside ?_
  split
  · split
    · exact s.startReadWord_aside _
    · rfl
  · rfl

theorem execRegisterWrite_completes (word : Word) : s.Completes (execRegisterWrite word s) := by
  unfold execRegisterWrite
  split
  · split
    · exact ⟨s, rfl, rfl⟩
    · exact State.writeWord_completes_aside (s.writeRegister_aside _ _)
  · exact State.event_completes_aside (s.startReadWord_aside _)
  all_goals exact ⟨s, rfl, rfl⟩

theorem execRecordRead_completes : s.Completes (execRecordRead s) := by
  unfold execRecordRead
  split
  · exact State.event_completes_aside s.readHead_aside
  all_goals exact ⟨s, rfl, rfl⟩

end

/-! ### Every command -/

/-- Every command but the two edges of RST# answers a next state with RST# and the queue as they were. -/
theorem exec_completes (s : State) {c : Instr} (no_assert : c ≠ .rstAssert) (no_release : c ≠ .rstRelease) :
    s.Completes (exec c s) := by
  cases c with
  | rstAssert => exact absurd rfl no_assert
  | rstRelease => exact absurd rfl no_release
  | powerOn | csRise => exact ⟨_, rfl, rfl⟩
  | csFall => exact execCsFall_completes s
  | commandByte byte => exact execCommandByte_completes s byte
  | registerWrite word => exact execRegisterWrite_completes s word
  | recordRead => exact execRecordRead_completes s
  | iflagWrite | ienableWrite => exact State.writeWord_completes_aside rfl
  | insertEdge => exact State.action_completes_aside s.insertEdge_aside
  | removeEdge => exact State.action_completes_aside s.removeEdge_aside
  | clearStage => exact State.action_completes_aside s.clearStage_aside
  | setFrameLength => exact State.action_completes_aside s.setFrameLength_aside
  | copyActive => exact State.action_completes_aside s.copyActive_aside
  | copyCompletion => exact State.event_completes_aside s.completeCopy_aside
  | readStageEntry => exact State.action_completes_aside s.readStageEntry_aside
  | readActiveEntry => exact State.action_completes_aside (s.readEntry_aside _ _)
  | commit => exact State.action_completes_aside s.commit_aside
  | validationCompletion => exact State.event_completes_aside s.completeValidation_aside
  | withdraw => exact State.action_completes_aside s.withdraw_aside
  | tripNoticePlanStore => exact State.event_completes_aside s.planStoreTakesNotice_aside
  | setTimebase => exact State.action_completes_aside s.setTimebase_aside
  | start => exact State.action_completes_aside s.startTimebase_aside
  | stop => exact State.action_completes_aside s.stopTimebase_aside
  | tick => exact State.event_completes_aside s.oneTick_tickFrame.aside
  | syncInArrival => exact State.event_completes_aside rfl
  | syncTimeout => exact State.event_completes_aside s.settleSync_tickFrame.aside
  | engineClaims => exact State.event_completes_aside s.lineBlockTakesClaims_blockFrame.tick.aside
  | deferralExpiry group => exact State.event_completes_aside (s.expireOne_aside group)
  | setLineConfig => exact State.action_completes_aside s.setLineConfig_blockFrame.tick.aside
  | setLineMode => exact State.action_completes_aside s.setLineMode_blockFrame.tick.aside
  | setGroup => exact State.action_completes_aside s.setGroup_aside
  | readLine => exact State.action_completes_aside s.readLine_aside
  | readGroup => exact State.action_completes_aside s.readGroup_aside
  | clearNoticeTimebase => exact State.event_completes_aside s.timebaseTakesClear_aside
  | clearNoticeLineBlock => exact State.event_completes_aside s.lineBlockTakesClear_aside
  | setSlot => exact State.action_completes_aside s.setSlot_aside
  | readSlot => exact State.action_completes_aside s.readSlot_aside
  | sampleNow => exact State.action_completes_aside s.sampleNow_aside
  | sampleRequest => exact State.event_completes_aside s.samplerTakesTag_aside
  | conversionCompletion => exact State.event_completes_aside s.completeConversion_aside
  | setConverter => exact State.action_completes_aside s.setConverter_aside
  | calibrate => exact State.action_completes_aside s.calibrate_aside
  | calibrationConversion => exact State.event_completes_aside s.completeTrial_aside
  | cancelCal => exact State.action_completes_aside s.cancelCal_aside
  | tripNoticeConverter => exact State.event_completes_aside s.samplingTakesNotice_aside
  | setRing => exact State.action_completes_aside s.setRing_aside
  | faultSample input pinHigh => exact State.event_completes_aside (s.judgeSample_aside _ _)
  | filterExpiry input =>
    refine State.event_completes_aside ?_
    split <;> rfl
  | setFault => exact State.action_completes_aside s.setFault_aside
  | tripSource source => exact State.event_completes_aside (s.controllerTakes_aside source)
  | trip => exact State.action_completes_aside (s.takeSource_aside _)
  | clearTrip => exact State.action_completes_aside s.clearTrip_aside
  | readTripRecord => exact State.action_completes_aside s.readTripRecord_aside
  | clearCounters => exact State.action_completes_aside (owner := fun u => (u.zeroCounters, .ok)) rfl
  | softReset => exact State.action_completes_aside (owner := fun u => (u.softReset, .ok)) s.softReset_aside

theorem exec_pending (c : Instr) (s : State) : ∃ t, exec c s = .next t ∧ t.pending = s.pending := by
  by_cases assert : c = .rstAssert
  · subst assert; exact ⟨_, rfl, rfl⟩
  by_cases release : c = .rstRelease
  · subst release
    refine ⟨_, rfl, ?_⟩
    split <;> rfl
  obtain ⟨t, next, kept⟩ := exec_completes s assert release
  exact ⟨t, next, congrArg Prod.snd kept⟩

/-- Settles O1: a step is `exec` by its definition, and no command reaches the queue. -/
theorem stepRunsTheFrontCommand : Obligations.StepRunsTheFrontCommand := by
  refine fun s => ⟨fun c rest waits => ?_, fun idle => ?_, fun c => exec_pending c s⟩
  · rw [step, waits]
  · have idles : step s = .next s.passClk := by rw [step, idle]
    exact idles

/-! ### Commands that are write words (R192, R196, R197) -/

/-- A command with an address is a write word there, and the effect of an action's word names the action's address. -/
theorem exec_eq_writeWord {c : Instr} {a : Address} (address : c.address = some a) (s : State) :
    ∃ t, exec c s = s.writeWord a t ∧ (0x20#7 ≤ a → t.port.actAddress = a) := by
  cases c with
  | iflagWrite | ienableWrite => cases address; exact ⟨_, rfl, fun action => absurd action (by decide)⟩
  | _ => cases address <;> exact ⟨_, rfl, fun _ => rfl⟩

theorem rstLow_of_exec_address {c : Instr} {a : Address} {s t : State} (address : c.address = some a)
    (h : exec c s = .next t) : t.rstLow = s.rstLow := by
  obtain ⟨u, next, kept⟩ := exec_completes (c := c) s (by rintro rfl; cases address) (by rintro rfl; cases address)
  cases h.symm.trans next
  exact congrArg Prod.fst kept

/-- Settles O8: a command with an address is a write word there, and no write word moves RST#. -/
theorem actionsHappenAtTheirAddress : Obligations.ActionsHappenAtTheirAddress := by
  intro c a s address
  obtain ⟨u, writes, acts⟩ := exec_eq_writeWord address s
  refine ⟨fun elsewhere => writes.trans (State.writeWord_elsewhere elsewhere u), fun at_word => ?_⟩
  have next : exec c s = .next (u.afterWord a) := writes.trans (State.writeWord_next at_word u)
  refine ⟨u.afterWord a, next, rfl, rstLow_of_exec_address address next, fun action => ⟨acts action, ?_⟩⟩
  show wordOfBytes u.port.code.code u.port.actAddress.toNat = _
  rw [acts action]
  rfl

end Sys2Proof.Machine
